-- ==== Sys2Proof/Word.lean ====
section
/-! DEFINITION. The word types of the block: a register and a command word are 32 bits (spec/10_state.md
section 2, spec/30_encoding.md R56), a byte 8, a half-word 16, a nibble 4. -/

namespace Sys2Proof

/-- A register value, a command word, a bus data value: 32 bits. -/
abbrev Word := BitVec 32

/-- A 16-bit value: the CRC register, a source id, a day count, IMM16. -/
abbrev Half := BitVec 16

/-- A byte: a wire byte of a frame, IMM8, the stored ACK field. -/
abbrev Byte := BitVec 8

/-- A 4-bit value: a protocol version, a result code. -/
abbrev Nibble := BitVec 4

end Sys2Proof
end

