-- ==== Sys2Proof/Config.lean ====
section
/-! DEFINITION. What an implementation of the block fixes: the parameters of spec/00_scope.md R4 to R8, with
the defaults that file recommends. The block shows them in its CONFIG register (spec/10_state.md R36). -/

namespace Sys2Proof

/-- `P_TS_LAYOUT` (spec/00_scope.md R8): the byte layout TS_PACK writes. `cds7` is the 7-byte frame,
`rsv8` the 8-byte frame with a reserved byte. -/
inductive TsLayout where
  | cds7
  | rsv8
deriving DecidableEq, Repr

/-- The block's parameters (spec/00_scope.md R4 to R8). -/
structure Params where
  /-- `P_BASE` (R4): the bus address of offset 0 of the register window. -/
  base : Nat
  /-- `P_PUS_VERSION` (R5): the one version SH_PACK accepts. -/
  pusVersion : Nibble
  /-- `P_TS_LAYOUT` (R8). -/
  tsLayout : TsLayout
  /-- `P_PFIELD` (R7): the p-field tag a commit stores. -/
  pfield : Byte
  /-- `P_KNOWN_VERSIONS` (R6) as the set's 16-bit map: bit `v` is 1 exactly when version `v` is known. -/
  known : Half
deriving DecidableEq, Repr

/-- The defaults of spec/00_scope.md R5 to R8. DESIGN CHOICE (unsafe, notes/assumptions/2.md): `base` is 0, because
R4 leaves P_BASE to the platform and gives no default. -/
def Params.default : Params where
  base := 0
  pusVersion := 2#4
  tsLayout := .cds7
  pfield := 0x40#8
  known := 0x0007#16

end Sys2Proof
end

