-- ==== Sys2Proof/Syntax.lean ====
section
/-! DEFINITION. What can be written down: the eleven commands of the opcode map (spec/30_encoding.md R60), their
three formats (R57), the ways a word is illegal (R61), the registers of the window (spec/10_state.md section 2),
the host's moves (spec/60_exceptions.md R123) and the lines of the host-side assembler (spec/30_encoding.md R64, R65). -/

namespace Sys2Proof

/-- The commands, one constructor per row of the opcode map (spec/30_encoding.md R60). The only operands in a word
are the immediates of R58 and R59. -/
inductive Instr where
  | nop
  | statClr
  | crcInit
  | crcByte (imm8 : Byte)
  | crcHalf (imm16 : Half)
  | crcCheck (imm16 : Half)
  | shPack
  | shUnpack
  | tsConvert
  | tsFromUnix
  | tsPack
deriving DecidableEq, Repr

/-- The three command formats (spec/30_encoding.md R57). -/
inductive Format where
  | f0
  | fb
  | fh
deriving DecidableEq, Repr

/-- The two ways a command word is illegal (spec/30_encoding.md R61): (a) the opcode is unassigned; (b) a
must-be-zero field of its format is not zero. -/
inductive IllegalWord where
  | unassignedOpcode
  | mustBeZero
deriving DecidableEq, Repr

/-- A row of the opcode map as match and mask (spec/30_encoding.md R60). -/
structure OpcodeRow where
  mnemonic : String
  pattern : Word
  mask : Word
deriving DecidableEq, Repr

/-- The 23 registers of the window, in offset order (spec/10_state.md section 2). -/
inductive RegName where
  | CMD
  | STATUS
  | CRC
  | CHK_INFO
  | SH_FIELDS
  | SH_SRCID
  | SH_FRAME0
  | SH_FRAME1
  | TS_DAY_IN
  | TS_MS_IN
  | UNIX_IN_LO
  | UNIX_IN_HI
  | UNIX_IN_NS
  | TSV_PDAY
  | TSV_MS
  | UNIX_LO
  | UNIX_HI
  | NANOS
  | CAL_DATE
  | CAL_TIME
  | TS_FRAME0
  | TS_FRAME1
  | CONFIG
deriving DecidableEq, Repr

/-- The access column of the register map (spec/10_state.md section 2). -/
inductive Access where
  | RW
  | RO
  | WO
deriving DecidableEq, Repr

/-- A move of the host (spec/60_exceptions.md R123). `read` is `MemRead(addr, size)`, `write` is
`MemWrite(addr, size, value)`; `addr` is a bus address, so a register at offset `off` is at `P_BASE + off`.
The value of a write whose size is not 4 is never looked at, because that write is refused
(spec/20_memory.md R42). `reset` is the platform's reset (spec/70_reset_and_hazards.md R125). -/
inductive HostMove where
  | read (addr size : Nat)
  | write (addr size : Nat) (value : Word)
  | reset
deriving DecidableEq, Repr

/-- A line of the host-side assembler: the two transaction forms of spec/30_encoding.md R64 and the
pseudo-instructions of R65. The operands of `crc.byte`, `crc.half` and `crc.check` are integers as the
programmer wrote them, because the assembler checks their range (R65). -/
inductive AsmLine where
  | wr (reg : RegName) (imm32 : Word)
  | rd (reg : RegName)
  | nop
  | statClr
  | crcInit
  | crcByte (b : Int)
  | crcHalf (h : Int)
  | crcCheck (h : Int)
  | shPack
  | shUnpack
  | tsConvert
  | tsFromUnix
  | tsPack
  | shLoad (ver : Nibble) (ack svc sub : Byte) (src : Word)
  | unixLoad (s : BitVec 64)
deriving DecidableEq, Repr

end Sys2Proof
end

