-- ==== Sys2Proof/WellFormed.lean ====
section
/-! DEFINITION. The static checks: parameter ranges (spec/00_scope.md R4, R6), the immediate ranges of a command
(spec/30_encoding.md R58, R59) and of an assembler line (R65), and the host moves the block accepts
(spec/20_memory.md R42). -/

namespace Sys2Proof

/-- The parameter conditions of spec/00_scope.md: `P_BASE` is a multiple of 256 (R4) and `P_KNOWN_VERSIONS`
contains `P_PUS_VERSION` (R6). -/
def Params.wellFormed (p : Params) : Bool :=
  p.base % 256 == 0 && p.known.getLsbD p.pusVersion.toNat

/-- The operand ranges of a command (spec/30_encoding.md R58, R59). The immediates have exactly the width of their
fields, so every term of `Instr` passes; the check is written so that a reader sees the ranges. -/
def Instr.wellFormed : Instr → Bool
  | .nop => true
  | .statClr => true
  | .crcInit => true
  | .crcByte b => decide (b.toNat ≤ 0xFF)
  | .crcHalf h => decide (h.toNat ≤ 0xFFFF)
  | .crcCheck h => decide (h.toNat ≤ 0xFFFF)
  | .shPack => true
  | .shUnpack => true
  | .tsConvert => true
  | .tsFromUnix => true
  | .tsPack => true

/-- The operand ranges the assembler checks (spec/30_encoding.md R65): `crc.byte` takes 0 to 0xFF, `crc.half` and
`crc.check` take 0 to 0xFFFF; no other line has an operand the assembler refuses. -/
def AsmLine.wellFormed : AsmLine → Bool
  | .wr _ _ => true
  | .rd _ => true
  | .nop => true
  | .statClr => true
  | .crcInit => true
  | .crcByte b => decide (0 ≤ b) && decide (b ≤ 0xFF)
  | .crcHalf h => decide (0 ≤ h) && decide (h ≤ 0xFFFF)
  | .crcCheck h => decide (0 ≤ h) && decide (h ≤ 0xFFFF)
  | .shPack => true
  | .shUnpack => true
  | .tsConvert => true
  | .tsFromUnix => true
  | .tsPack => true
  | .shLoad _ _ _ _ _ => true
  | .unixLoad _ => true

/-- A transaction at `addr` of `size` bytes is mapped (spec/20_memory.md R42): it lies in the block's 256-byte window
(R41), its offset is a multiple of 4 and at most 0x58, and its size is 4. -/
def mappedAccess (p : Params) (addr size : Nat) : Bool :=
  decide (p.base ≤ addr) && decide ((addr - p.base) % 4 = 0) && decide (addr - p.base ≤ 0x58) && decide (size = 4)

/-- A move the host may make (spec/60_exceptions.md R123): a mapped read or write, or the reset. -/
def HostMove.wellFormed (p : Params) : HostMove → Bool
  | .read addr size => mappedAccess p addr size
  | .write addr size _ => mappedAccess p addr size
  | .reset => true

end Sys2Proof
end

