-- ==== Sys2Proof/Decode.lean ====
section
/-! DEFINITION. Decoding and encoding of command words (spec/30_encoding.md R56 to R63), and the opcode map as
match and mask (R60). Decoding is total: it gives the command, or says by name why the word is illegal (R61). It
needs nothing but the word (R63). -/

namespace Sys2Proof

/-- Field OP, bits [7:0] (spec/30_encoding.md R56). -/
def opField (w : Word) : Byte := w.extractLsb' 0 8

/-- Field B, bits [15:8] (spec/30_encoding.md R56); IMM8 where the format gives one (R58). -/
def bField (w : Word) : Byte := w.extractLsb' 8 8

/-- Field H, bits [31:16] (spec/30_encoding.md R56); IMM16 where the format gives one (R59). -/
def hField (w : Word) : Half := w.extractLsb' 16 16

/-- The opcode map read by OP (spec/30_encoding.md R60): the row's format, and the command with its immediate, if
any, taken from the fields. `none` for the 245 unassigned opcodes. -/
def opcodeLookup (op : Byte) (b : Byte) (h : Half) : Option (Format × Instr) :=
  match op.toNat with
  | 0x00 => some (.f0, .nop)
  | 0x01 => some (.f0, .statClr)
  | 0x10 => some (.f0, .crcInit)
  | 0x11 => some (.fb, .crcByte b)
  | 0x12 => some (.fh, .crcHalf h)
  | 0x13 => some (.fh, .crcCheck h)
  | 0x20 => some (.f0, .shPack)
  | 0x21 => some (.f0, .shUnpack)
  | 0x30 => some (.f0, .tsConvert)
  | 0x31 => some (.f0, .tsFromUnix)
  | 0x32 => some (.f0, .tsPack)
  | _ => none

/-- Whether the must-be-zero fields of a format are zero (spec/30_encoding.md R57). -/
def formatOk (f : Format) (b : Byte) (h : Half) : Bool :=
  match f with
  | .f0 => b == 0#8 && h == 0#16
  | .fb => h == 0#16
  | .fh => b == 0#8

/-- Decoding a command word (spec/30_encoding.md R56): look OP up, then check the must-be-zero fields. An illegal
word is named by its cause (R61). -/
def decode (w : Word) : Except IllegalWord Instr :=
  match opcodeLookup (opField w) (bField w) (hField w) with
  | none => .error .unassignedOpcode
  | some (f, i) => if formatOk f (bField w) (hField w) then .ok i else .error .mustBeZero

/-- The command word with the fields H, B and OP (spec/30_encoding.md R56). -/
def wordOf (h : Half) (b op : Byte) : Word := h ++ b ++ op

/-- The command word of a command (spec/30_encoding.md R57, R60). -/
def encode : Instr → Word
  | .nop => wordOf 0 0 0x00
  | .statClr => wordOf 0 0 0x01
  | .crcInit => wordOf 0 0 0x10
  | .crcByte b => wordOf 0 b 0x11
  | .crcHalf h => wordOf h 0 0x12
  | .crcCheck h => wordOf h 0 0x13
  | .shPack => wordOf 0 0 0x20
  | .shUnpack => wordOf 0 0 0x21
  | .tsConvert => wordOf 0 0 0x30
  | .tsFromUnix => wordOf 0 0 0x31
  | .tsPack => wordOf 0 0 0x32

/-- The command's mnemonic in the opcode map (spec/30_encoding.md R60). -/
def Instr.mnemonic : Instr → String
  | .nop => "NOP"
  | .statClr => "STAT_CLR"
  | .crcInit => "CRC_INIT"
  | .crcByte _ => "CRC_BYTE"
  | .crcHalf _ => "CRC_HALF"
  | .crcCheck _ => "CRC_CHECK"
  | .shPack => "SH_PACK"
  | .shUnpack => "SH_UNPACK"
  | .tsConvert => "TS_CONVERT"
  | .tsFromUnix => "TS_FROM_UNIX"
  | .tsPack => "TS_PACK"

/-- The opcode map as match and mask over the whole word (spec/30_encoding.md R60). -/
def opcodeMap : List OpcodeRow :=
  [⟨"NOP", 0x00000000, 0xFFFFFFFF⟩,
   ⟨"STAT_CLR", 0x00000001, 0xFFFFFFFF⟩,
   ⟨"CRC_INIT", 0x00000010, 0xFFFFFFFF⟩,
   ⟨"CRC_BYTE", 0x00000011, 0xFFFF00FF⟩,
   ⟨"CRC_HALF", 0x00000012, 0x0000FFFF⟩,
   ⟨"CRC_CHECK", 0x00000013, 0x0000FFFF⟩,
   ⟨"SH_PACK", 0x00000020, 0xFFFFFFFF⟩,
   ⟨"SH_UNPACK", 0x00000021, 0xFFFFFFFF⟩,
   ⟨"TS_CONVERT", 0x00000030, 0xFFFFFFFF⟩,
   ⟨"TS_FROM_UNIX", 0x00000031, 0xFFFFFFFF⟩,
   ⟨"TS_PACK", 0x00000032, 0xFFFFFFFF⟩]

/-- A word selects a row when `(w AND mask) = match` (spec/30_encoding.md R60). -/
def OpcodeRow.selects (r : OpcodeRow) (w : Word) : Bool := w &&& r.mask == r.pattern

/-- The instruction whose bits are `w`, bit 0 the least significant bit of the one 32-bit command word: the low
`nbits` bits of `w`, every bit above them 0. A command word is bus data, taken whole (spec/20_memory.md R51), so no
byte order enters. -/
def decodeTableWord (nbits w : Nat) : Option Instr :=
  match decode (BitVec.ofNat 32 (w % 2 ^ nbits)) with
  | .ok i => some i
  | .error _ => none

end Sys2Proof
end

