-- ==== Sys2Proof/Machine/State.lean ====
section
/-! DEFINITION. The block's stored fields, grouped by unit, one field of a record for each stored field of the
register map at its stated width (spec/10_state.md R15); the host's side of the machine; reset; the result codes, the
faults and the refusal. -/

namespace Sys2Proof.Machine

open Sys2Proof

/-- The result codes of spec/60_exceptions.md R109 (codes 6 to 15 are reserved and never produced). -/
inductive ResultCode where
  | ok
  | illegalCmd
  | unsupportedVersion
  | checksumMismatch
  | range
  | noValue
deriving DecidableEq, Repr

/-- The stored fields of `STATUS` (spec/10_state.md R17 to R21); a 1-bit field is a `Bool`. -/
structure Status where
  /-- ERR [3:0]: the result code of the most recent command (R17). -/
  err : Nibble
  /-- STICKY [4]: some command failed since the last STAT_CLR (R18). -/
  sticky : Bool
  /-- MATCH [5]: the last CRC_CHECK's comparison (R19). -/
  matched : Bool
  /-- VER_KNOWN [6]: the last SH_UNPACK's version is a known one (R20). -/
  verKnown : Bool
  /-- TS_VALID [7]: a timestamp has been committed since reset (R21). -/
  tsValid : Bool
deriving DecidableEq, Repr

/-- The CRC unit: `CRC.VALUE` (spec/10_state.md R22) and `CHK_INFO` (R23). -/
structure CrcUnit where
  value : Half
  expected : Half
  found : Half
deriving DecidableEq, Repr

/-- The secondary-header packer: `SH_FIELDS` (spec/10_state.md R24), `SH_SRCID` (R25), the frame bytes of
`SH_FRAME0` (R26) and `SH_FRAME1` (R27). -/
structure SecHdr where
  ack : Byte
  version : Nibble
  service : Byte
  subservice : Byte
  sourceId : Half
  b0 : Byte
  b1 : Byte
  b2 : Byte
  b3 : Byte
  b4 : Byte
deriving DecidableEq, Repr

/-- The timestamp converter's operand registers: `TS_DAY_IN` (spec/10_state.md R28), `TS_MS_IN` (R29),
`UNIX_IN_LO`, `UNIX_IN_HI` (R30), `UNIX_IN_NS` (R31). -/
structure TsOperands where
  day : Half
  ms : Word
  secLo : Word
  secHi : Word
  ns : Word
deriving DecidableEq, Repr

/-- The committed timestamp: `TSV_PDAY` (spec/10_state.md R32), `TSV_MS` (R33), `UNIX_LO`, `UNIX_HI`, `NANOS` (R34),
`CAL_DATE`, `CAL_TIME` (R35). -/
structure Committed where
  pfield : Byte
  day : Half
  ms : Word
  secLo : Word
  secHi : Word
  ns : Word
  year : Half
  month : Byte
  mday : Byte
  hour : Byte
  minute : Byte
  second : Byte
deriving DecidableEq, Repr

/-- The timestamp frame: `TS_FRAME0.W` and `TS_FRAME1.W` (spec/10_state.md R37). -/
structure TsFrame where
  w0 : Word
  w1 : Word
deriving DecidableEq, Repr

/-- The machine. `params` are the block's parameters, shown by the constant register CONFIG (spec/10_state.md R36;
notes/assumptions/1.md). `status` to `tsFrame` are the block's stored fields (R15). `program`, `pc` and `reads` are
the host's: its list of moves, the index of the next one (R14), and the values its reads returned, newest first
(notes/assumptions/3.md and 4.md). -/
structure State where
  params : Params
  status : Status
  crc : CrcUnit
  sh : SecHdr
  tsIn : TsOperands
  tsv : Committed
  tsFrame : TsFrame
  program : List HostMove
  pc : Nat
  reads : List Word
deriving DecidableEq, Repr

/-- Why a run stops. Both are faults of the host's program: the block itself never faults (spec/60_exceptions.md R124). -/
inductive Fault where
  /-- Raised by a read or write inside the window that spec/20_memory.md R42 refuses: an offset above 0x58, an offset that
  is no multiple of 4, or a size other than 4 (spec/60_exceptions.md R110). Safe: the spec's model faults here. -/
  | busError
  /-- Raised by a read or write whose address is not in the block's window: it reaches no register of this block
  (spec/20_memory.md R41). DEDUCED (notes/assumptions/5.md). Safe: the model stops where a platform may go on. -/
  | outsideWindow
deriving DecidableEq, Repr

/-- Why an instruction has no meaning. The block gives a model no refusals (spec/60_exceptions.md R124). -/
inductive Refusal where
  /-- An instruction that `exec` rejects by name. No arm does; nothing raises it. Safe. -/
  | notModelled (mnemonic : String)
deriving DecidableEq, Repr

/-- What a meaning answers. -/
abbrev Answer := Host.Outcome State Fault Refusal

/-- The machine right after reset with given parameters and no host program: `CRC.VALUE` is 0xFFFF and every other
stored field 0 (spec/10_state.md R39). -/
def State.resetWith (p : Params) : State where
  params := p
  status := ⟨0, false, false, false, false⟩
  crc := ⟨0xFFFF, 0, 0⟩
  sh := ⟨0, 0, 0, 0, 0, 0, 0, 0, 0, 0⟩
  tsIn := ⟨0, 0, 0, 0, 0⟩
  tsv := ⟨0, 0, 0, 0, 0, 0, 0, 0, 0, 0, 0, 0⟩
  tsFrame := ⟨0, 0⟩
  program := []
  pc := 0
  reads := []

/-- The machine right after reset (spec/10_state.md R39) with the default parameters. The host's fields are the model's:
no program is loaded (notes/assumptions/3.md). -/
def State.reset : State := State.resetWith Params.default

end Sys2Proof.Machine
end

