-- ==== Sys2Proof/Machine/Flags.lean ====
section
/-! DEFINITION. The status bits: the numbers of the result codes (spec/60_exceptions.md R109), what a result does to ERR
and STICKY (R112), and how MATCH, VER_KNOWN and the layout code of CONFIG are computed. -/

namespace Sys2Proof.Machine

open Sys2Proof

/-- The 4-bit number of a result code (spec/60_exceptions.md R109). -/
def resultBits : ResultCode → Nibble
  | .ok => 0
  | .illegalCmd => 1
  | .unsupportedVersion => 2
  | .checksumMismatch => 3
  | .range => 4
  | .noValue => 5

/-- STICKY after a command that ends with `code` (spec/60_exceptions.md R112): set by a code other than OK. -/
def stickyAfter (code : ResultCode) (sticky : Bool) : Bool :=
  if code = .ok then sticky else true

/-- STATUS.MATCH of CRC_CHECK (spec/41_crc.md R80). -/
def matchFlag (expected found : Half) : Bool := expected == found

/-- STATUS.VER_KNOWN of SH_UNPACK (spec/42_sechdr.md R88): the version is in `P_KNOWN_VERSIONS`. -/
def verKnownFlag (p : Params) (version : Nibble) : Bool := p.known.getLsbD version.toNat

/-- A stored 1-bit field as bits. -/
def flagBit (b : Bool) : BitVec 1 := BitVec.ofBool b

/-- CONFIG.TS_LAYOUT (spec/10_state.md R36): 0 for CDS7, 1 for RSV8. -/
def layoutBit : TsLayout → BitVec 1
  | .cds7 => 0
  | .rsv8 => 1

end Sys2Proof.Machine
end

