-- ==== Sys2Proof/Machine/Operands.lean ====
section
/-! DEFINITION. Operand forms: the bytes of an IMM16 (spec/30_encoding.md R59), the byte lanes of frame registers
(spec/20_memory.md R52), the 64-bit operand pair and its nanoseconds (spec/10_state.md R30, R31), and the operand
values of TS_CONVERT (R28, R29). -/

namespace Sys2Proof.Machine

open Sys2Proof

/-- `IMM16[15:8]`, the first byte on the wire (spec/30_encoding.md R59). -/
def firstByte (h : Half) : Byte := h.extractLsb' 8 8

/-- `IMM16[7:0]`, the second byte on the wire (spec/30_encoding.md R59). -/
def secondByte (h : Half) : Byte := h.extractLsb' 0 8

/-- A frame register from its four bytes in wire order, the first in bits [31:24] (spec/20_memory.md R52). -/
def frameWord (b0 b1 b2 b3 : Byte) : Word := b0 ++ b1 ++ b2 ++ b3

/-- Wire byte `k` (taken modulo 4) of a frame register: bits `[31-8k : 24-8k]` (spec/20_memory.md R52). -/
def lane (w : Word) (k : Nat) : Byte := w.extractLsb' (24 - 8 * (k % 4)) 8

/-- Wire byte `k` of a frame held in a register pair: word `k div 4`, lane `k mod 4` (spec/20_memory.md R52). -/
def frameByte (w0 w1 : Word) (k : Nat) : Byte := if k < 4 then lane w0 k else lane w1 k

/-- `{hi, lo}`, a 64-bit value from its two registers (spec/10_state.md R30, R34). -/
def pair64 (hi lo : Word) : BitVec 64 := hi ++ lo

/-- The operand `s = sint({SEC_HI, SEC_LO})` of TS_FROM_UNIX (spec/10_state.md R30). -/
def unixInSeconds (s : State) : Int := (pair64 s.tsIn.secHi s.tsIn.secLo).toInt

/-- The operand `ns = uint(UNIX_IN_NS.NS)` of TS_FROM_UNIX (spec/10_state.md R31). -/
def unixInNanos (s : State) : Nat := s.tsIn.ns.toNat

end Sys2Proof.Machine
end

