-- ==== Sys2Proof/Machine/Ops.lean ====
section
/-! DEFINITION. The named operations on the machine: ending a command with its result code, the one shared operation for
every error (spec/60_exceptions.md R112 to R115); the register map, register reads and writes (spec/10_state.md section 2,
spec/20_memory.md R41 to R46); the platform's reset (spec/70_reset_and_hazards.md R125); the host's bookkeeping; and
fetching the host's next move (spec/10_state.md R14). -/

namespace Sys2Proof.Machine

open Sys2Proof

/-! ### Completion of a command -/

/-- The `ERR` and `STICKY` update every command makes (spec/60_exceptions.md R112). -/
def setResult (code : ResultCode) (s : State) : State :=
  { s with status := { s.status with err := resultBits code, sticky := stickyAfter code s.status.sticky } }

/-- `s` with only `CHK_INFO.EXPECTED`, `CHK_INFO.FOUND` and `STATUS.MATCH` taken from `t`: the writes that a
CHECKSUM_MISMATCH keeps (spec/60_exceptions.md R112). -/
def keepMismatchData (t s : State) : State :=
  { s with crc := { s.crc with expected := t.crc.expected, found := t.crc.found },
           status := { s.status with matched := t.status.matched } }

/-- `complete(code)` of spec/60_exceptions.md R112, with `writes` the result writes of the command's rule: all of them
are committed on OK, the mismatch data on CHECKSUM_MISMATCH, none on any other code. This is the block's one way of
taking an error; an error is no trap (R114) and there is no return from one (R115). -/
def complete (code : ResultCode) (writes : State → State) (s : State) : State :=
  match code with
  | .ok => setResult .ok (writes s)
  | .checksumMismatch => setResult .checksumMismatch (keepMismatchData (writes s) s)
  | .illegalCmd => setResult .illegalCmd s
  | .unsupportedVersion => setResult .unsupportedVersion s
  | .range => setResult .range s
  | .noValue => setResult .noValue s

/-- A command's end as an answer: any result code is a normal step to a new state (spec/60_exceptions.md R124). -/
def finish (code : ResultCode) (writes : State → State) (s : State) : Answer :=
  .next (complete code writes s)

/-! ### The register map -/

/-- The register at an offset (spec/10_state.md section 2); `none` at an offset that names none. -/
def regAt (off : Nat) : Option RegName :=
  match off with
  | 0x00 => some .CMD
  | 0x04 => some .STATUS
  | 0x08 => some .CRC
  | 0x0C => some .CHK_INFO
  | 0x10 => some .SH_FIELDS
  | 0x14 => some .SH_SRCID
  | 0x18 => some .SH_FRAME0
  | 0x1C => some .SH_FRAME1
  | 0x20 => some .TS_DAY_IN
  | 0x24 => some .TS_MS_IN
  | 0x28 => some .UNIX_IN_LO
  | 0x2C => some .UNIX_IN_HI
  | 0x30 => some .UNIX_IN_NS
  | 0x34 => some .TSV_PDAY
  | 0x38 => some .TSV_MS
  | 0x3C => some .UNIX_LO
  | 0x40 => some .UNIX_HI
  | 0x44 => some .NANOS
  | 0x48 => some .CAL_DATE
  | 0x4C => some .CAL_TIME
  | 0x50 => some .TS_FRAME0
  | 0x54 => some .TS_FRAME1
  | 0x58 => some .CONFIG
  | _ => none

/-- The offset of a register (spec/10_state.md section 2). -/
def regOffset : RegName → Nat
  | .CMD => 0x00
  | .STATUS => 0x04
  | .CRC => 0x08
  | .CHK_INFO => 0x0C
  | .SH_FIELDS => 0x10
  | .SH_SRCID => 0x14
  | .SH_FRAME0 => 0x18
  | .SH_FRAME1 => 0x1C
  | .TS_DAY_IN => 0x20
  | .TS_MS_IN => 0x24
  | .UNIX_IN_LO => 0x28
  | .UNIX_IN_HI => 0x2C
  | .UNIX_IN_NS => 0x30
  | .TSV_PDAY => 0x34
  | .TSV_MS => 0x38
  | .UNIX_LO => 0x3C
  | .UNIX_HI => 0x40
  | .NANOS => 0x44
  | .CAL_DATE => 0x48
  | .CAL_TIME => 0x4C
  | .TS_FRAME0 => 0x50
  | .TS_FRAME1 => 0x54
  | .CONFIG => 0x58

/-- The access column of the register map (spec/10_state.md section 2). -/
def regAccess : RegName → Access
  | .CMD => .WO
  | .STATUS => .RO
  | .CRC => .RW
  | .CHK_INFO => .RO
  | .SH_FIELDS => .RW
  | .SH_SRCID => .RW
  | .SH_FRAME0 => .RW
  | .SH_FRAME1 => .RW
  | .TS_DAY_IN => .RW
  | .TS_MS_IN => .RW
  | .UNIX_IN_LO => .RW
  | .UNIX_IN_HI => .RW
  | .UNIX_IN_NS => .RW
  | .TSV_PDAY => .RO
  | .TSV_MS => .RO
  | .UNIX_LO => .RO
  | .UNIX_HI => .RO
  | .NANOS => .RO
  | .CAL_DATE => .RO
  | .CAL_TIME => .RO
  | .TS_FRAME0 => .RO
  | .TS_FRAME1 => .RO
  | .CONFIG => .RO

/-- The register a transaction reaches. Outside the block's window it reaches none; inside, a transaction of a size
other than 4 or at an offset that names no register is refused with a bus error (spec/20_memory.md R42). -/
def selectReg (p : Params) (addr size : Nat) : Except Fault RegName :=
  if addr < p.base then .error .outsideWindow
  else if p.base + 256 ≤ addr then .error .outsideWindow
  else if size = 4 then
    match regAt (addr - p.base) with
    | some r => .ok r
    | none => .error .busError
  else .error .busError

/-! ### Register reads and writes -/

/-- The constant `CONFIG` (spec/10_state.md R36). -/
def configWord (p : Params) : Word := p.known ++ p.pfield ++ 0#3 ++ layoutBit p.tsLayout ++ p.pusVersion

/-- `STATUS` from its stored fields (spec/10_state.md R17 to R21). -/
def statusWord (st : Status) : Word :=
  0#24 ++ flagBit st.tsValid ++ flagBit st.verKnown ++ flagBit st.matched ++ flagBit st.sticky ++ st.err

/-- The value a mapped read returns: each stored field at its bits, every reserved bit 0, and 0 for `CMD`
(spec/20_memory.md R45, spec/10_state.md R16, R38). A read changes nothing. -/
def readReg (r : RegName) (s : State) : Word :=
  match r with
  | .CMD => 0
  | .STATUS => statusWord s.status
  | .CRC => 0#16 ++ s.crc.value
  | .CHK_INFO => s.crc.expected ++ s.crc.found
  | .SH_FIELDS => s.sh.subservice ++ s.sh.service ++ 0#4 ++ s.sh.version ++ s.sh.ack
  | .SH_SRCID => 0#16 ++ s.sh.sourceId
  | .SH_FRAME0 => frameWord s.sh.b0 s.sh.b1 s.sh.b2 s.sh.b3
  | .SH_FRAME1 => s.sh.b4 ++ 0#24
  | .TS_DAY_IN => 0#16 ++ s.tsIn.day
  | .TS_MS_IN => s.tsIn.ms
  | .UNIX_IN_LO => s.tsIn.secLo
  | .UNIX_IN_HI => s.tsIn.secHi
  | .UNIX_IN_NS => s.tsIn.ns
  | .TSV_PDAY => s.tsv.pfield ++ 0#8 ++ s.tsv.day
  | .TSV_MS => s.tsv.ms
  | .UNIX_LO => s.tsv.secLo
  | .UNIX_HI => s.tsv.secHi
  | .NANOS => s.tsv.ns
  | .CAL_DATE => s.tsv.year ++ s.tsv.month ++ s.tsv.mday
  | .CAL_TIME => 0#8 ++ s.tsv.hour ++ s.tsv.minute ++ s.tsv.second
  | .TS_FRAME0 => s.tsFrame.w0
  | .TS_FRAME1 => s.tsFrame.w1
  | .CONFIG => configWord s.params

/-- A mapped write to a register other than `CMD` (spec/20_memory.md R46): an RW register's stored fields are set from
their bits and the reserved bits dropped; an RO register is left as it is. A write to `CMD` runs a command, which
`runCommand` does; this operation leaves `CMD` alone, because it holds no state (spec/10_state.md R16). -/
def writeReg (r : RegName) (v : Word) (s : State) : State :=
  match r with
  | .CMD => s
  | .STATUS => s
  | .CRC => { s with crc := { s.crc with value := v.extractLsb' 0 16 } }
  | .CHK_INFO => s
  | .SH_FIELDS => { s with sh := { s.sh with ack := v.extractLsb' 0 8, version := v.extractLsb' 8 4,
                                             service := v.extractLsb' 16 8, subservice := v.extractLsb' 24 8 } }
  | .SH_SRCID => { s with sh := { s.sh with sourceId := v.extractLsb' 0 16 } }
  | .SH_FRAME0 => { s with sh := { s.sh with b0 := lane v 0, b1 := lane v 1, b2 := lane v 2, b3 := lane v 3 } }
  | .SH_FRAME1 => { s with sh := { s.sh with b4 := lane v 0 } }
  | .TS_DAY_IN => { s with tsIn := { s.tsIn with day := v.extractLsb' 0 16 } }
  | .TS_MS_IN => { s with tsIn := { s.tsIn with ms := v } }
  | .UNIX_IN_LO => { s with tsIn := { s.tsIn with secLo := v } }
  | .UNIX_IN_HI => { s with tsIn := { s.tsIn with secHi := v } }
  | .UNIX_IN_NS => { s with tsIn := { s.tsIn with ns := v } }
  | .TSV_PDAY => s
  | .TSV_MS => s
  | .UNIX_LO => s
  | .UNIX_HI => s
  | .NANOS => s
  | .CAL_DATE => s
  | .CAL_TIME => s
  | .TS_FRAME0 => s
  | .TS_FRAME1 => s
  | .CONFIG => s

/-! ### Reset and the host's side -/

/-- The platform's reset (spec/70_reset_and_hazards.md R125): every stored field of the block takes its reset value
(spec/10_state.md R39). The parameters are constant (R36); the host keeps its program and what it has read. -/
def platformReset (s : State) : State :=
  { s with status := ⟨0, false, false, false, false⟩
           crc := ⟨0xFFFF, 0, 0⟩
           sh := ⟨0, 0, 0, 0, 0, 0, 0, 0, 0, 0⟩
           tsIn := ⟨0, 0, 0, 0, 0⟩
           tsv := ⟨0, 0, 0, 0, 0, 0, 0, 0, 0, 0, 0, 0⟩
           tsFrame := ⟨0, 0⟩ }

/-- The host goes on to its next move (spec/10_state.md R14). -/
def advance (s : State) : State := { s with pc := s.pc + 1 }

/-- The host keeps the value a read returned, newest first (notes/assumptions/4.md). -/
def recordRead (v : Word) (s : State) : State := { s with reads := v :: s.reads }

/-- The host's next move, `none` at the end of its program (spec/10_state.md R14). -/
def fetchMove (s : State) : Option HostMove := s.program[s.pc]?

/-- A program with the move `m` at index `k`, every other move as it was; indices up to `k` that the program does not
reach are filled with `filler`. -/
def placeMove (filler m : HostMove) : List HostMove → Nat → List HostMove
  | [], 0 => [m]
  | [], k + 1 => filler :: placeMove filler m [] k
  | _ :: rest, 0 => m :: rest
  | x :: rest, k + 1 => x :: placeMove filler m rest k

end Sys2Proof.Machine
end

