-- ==== Sys2Proof/Machine/Control.lean ====
section
/-! DEFINITION. The control commands NOP and STAT_CLR (spec/40_control.md R70, R71). -/

namespace Sys2Proof.Machine

open Sys2Proof

/-- NOP (spec/40_control.md R70): no operation; ends with OK. -/
def execNop (s : State) : Answer := finish .ok (fun s => s) s

/-- `STATUS.STICKY <- 0` (spec/40_control.md R71). -/
def clearSticky (s : State) : State := { s with status := { s.status with sticky := false } }

/-- STAT_CLR (spec/40_control.md R71): clears the error record; ends with OK. -/
def execStatClr (s : State) : Answer := finish .ok clearSticky s

end Sys2Proof.Machine
end

