-- ==== Sys2Proof/Machine/Crc.lean ====
section
/-! DEFINITION. The CRC unit: the CRC function and its fold over a byte sequence (spec/41_crc.md R73, R74) and the
commands CRC_INIT, CRC_BYTE, CRC_HALF and CRC_CHECK (R76 to R80). -/

namespace Sys2Proof.Machine

open Sys2Proof

/-- `CRC_POLY` (spec/00_scope.md R9). -/
def crcPoly : Half := 0x1021

/-- `CRC_INIT` (spec/00_scope.md R9). -/
def crcInitValue : Half := 0xFFFF

/-- One shift of the loop of `crc_update` (spec/41_crc.md R73). -/
def crcShift (c : Half) : Half :=
  if c.getLsbD 15 then (c <<< 1) ^^^ crcPoly else c <<< 1

/-- `n` shifts of the loop of `crc_update` (spec/41_crc.md R73). -/
def crcShifts : Nat → Half → Half
  | 0, c => c
  | n + 1, c => crcShifts n (crcShift c)

/-- `crc_update(c, b)` (spec/41_crc.md R73): folds one byte into the CRC, most significant bit first. -/
def crcUpdate (c : Half) (b : Byte) : Half := crcShifts 8 (c ^^^ (b ++ 0#8))

/-- `fold(c, m)` (spec/41_crc.md R74). -/
def crcFold (c : Half) : List Byte → Half
  | [] => c
  | b :: rest => crcFold (crcUpdate c b) rest

/-- `crc16(m) = fold(0xFFFF, m)` (spec/41_crc.md R74). -/
def crc16 (m : List Byte) : Half := crcFold crcInitValue m

/-- The packet bytes to digest, in the order of spec/41_crc.md R79: the primary header's, the secondary header's, then the
payload's. The order is the host's duty; the block does not enforce it. -/
def packetDigestBytes (primary secondary payload : List Byte) : List Byte := primary ++ secondary ++ payload

/-- `CRC.VALUE <- v`. -/
def storeCrc (v : Half) (s : State) : State := { s with crc := { s.crc with value := v } }

/-- The writes of CRC_CHECK (spec/41_crc.md R80): `CHK_INFO` and `STATUS.MATCH`. -/
def storeCheck (expected found : Half) (s : State) : State :=
  { s with crc := { s.crc with expected := expected, found := found },
           status := { s.status with matched := matchFlag expected found } }

/-- CRC_INIT (spec/41_crc.md R76). -/
def execCrcInit (s : State) : Answer := finish .ok (storeCrc crcInitValue) s

/-- CRC_BYTE (spec/41_crc.md R77). -/
def execCrcByte (imm8 : Byte) (s : State) : Answer :=
  finish .ok (storeCrc (crcUpdate s.crc.value imm8)) s

/-- CRC_HALF (spec/41_crc.md R78): the high byte first. -/
def execCrcHalf (imm16 : Half) (s : State) : Answer :=
  finish .ok (storeCrc (crcUpdate (crcUpdate s.crc.value (firstByte imm16)) (secondByte imm16))) s

/-- The result code of CRC_CHECK (spec/41_crc.md R80). -/
def checkResult (expected found : Half) : ResultCode :=
  if expected = found then .ok else .checksumMismatch

/-- CRC_CHECK (spec/41_crc.md R80): expected is the trailer IMM16, found the digest. -/
def execCrcCheck (imm16 : Half) (s : State) : Answer :=
  finish (checkResult imm16 s.crc.value) (storeCheck imm16 s.crc.value) s

end Sys2Proof.Machine
end

