-- ==== Sys2Proof/Machine/SecHdr.lean ====
section
/-! DEFINITION. The secondary-header packer: the functions `sh_pack` and `sh_unpack` (spec/42_sechdr.md R84, R87) and the
commands SH_PACK (R86) and SH_UNPACK (R88). The frame has 5 bytes (R83; spec/90_conflicts.md C1). -/

namespace Sys2Proof.Machine

open Sys2Proof

/-- The fields of a secondary header, as spec/42_sechdr.md R84 and R87 pass them. -/
structure ShFields where
  version : Nibble
  ack : Byte
  service : Byte
  subservice : Byte
  sourceId : Half
deriving DecidableEq, Repr

/-- The five bytes of a secondary-header frame (spec/42_sechdr.md R83). -/
structure ShBytes where
  b0 : Byte
  b1 : Byte
  b2 : Byte
  b3 : Byte
  b4 : Byte
deriving DecidableEq, Repr

/-- `sh_pack` (spec/42_sechdr.md R84): bits [7:4] of `ack` never reach the wire. -/
def shPackBytes (f : ShFields) : ShBytes where
  b0 := f.version ++ f.ack.extractLsb' 0 4
  b1 := f.service
  b2 := f.subservice
  b3 := firstByte f.sourceId
  b4 := secondByte f.sourceId

/-- `sh_unpack` (spec/42_sechdr.md R87): every 5-byte input unpacks. -/
def shUnpackFields (b : ShBytes) : ShFields where
  version := b.b0.extractLsb' 4 4
  ack := 0#4 ++ b.b0.extractLsb' 0 4
  service := b.b1
  subservice := b.b2
  sourceId := b.b3 ++ b.b4

/-- The field registers `SH_FIELDS` and `SH_SRCID` as operands of SH_PACK (spec/42_sechdr.md R86). -/
def shFieldsOf (s : State) : ShFields := ⟨s.sh.version, s.sh.ack, s.sh.service, s.sh.subservice, s.sh.sourceId⟩

/-- The frame registers `SH_FRAME0` and `SH_FRAME1` as operands of SH_UNPACK (spec/42_sechdr.md R88). -/
def shBytesOf (s : State) : ShBytes := ⟨s.sh.b0, s.sh.b1, s.sh.b2, s.sh.b3, s.sh.b4⟩

/-- The writes of SH_PACK: the frame bytes (spec/42_sechdr.md R86). -/
def storeShBytes (b : ShBytes) (s : State) : State :=
  { s with sh := { s.sh with b0 := b.b0, b1 := b.b1, b2 := b.b2, b3 := b.b3, b4 := b.b4 } }

/-- The writes of SH_UNPACK: the fields and `STATUS.VER_KNOWN` (spec/42_sechdr.md R88). -/
def storeShFields (f : ShFields) (s : State) : State :=
  { s with sh := { s.sh with version := f.version, ack := f.ack, service := f.service, subservice := f.subservice,
                             sourceId := f.sourceId },
           status := { s.status with verKnown := verKnownFlag s.params f.version } }

/-- The result code of SH_PACK (spec/42_sechdr.md R85, R86): the version is checked on pack only. -/
def packResult (s : State) : ResultCode :=
  if s.sh.version = s.params.pusVersion then .ok else .unsupportedVersion

/-- SH_PACK (spec/42_sechdr.md R86). -/
def execShPack (s : State) : Answer := finish (packResult s) (storeShBytes (shPackBytes (shFieldsOf s))) s

/-- SH_UNPACK (spec/42_sechdr.md R88): raises nothing; an unknown version is surfaced as data. -/
def execShUnpack (s : State) : Answer := finish .ok (storeShFields (shUnpackFields (shBytesOf s))) s

end Sys2Proof.Machine
end

