-- ==== Sys2Proof/Machine/Timestamp.lean ====
section
/-! DEFINITION. The timestamp converter: `unix_from_cds`, `civil_from_days`, `commit`, `write_calendar`, `cds_from_unix`
and `ts_frame` (spec/43_timestamp.md R91 to R105) and the commands TS_CONVERT (R96), TS_FROM_UNIX (R103) and TS_PACK
(R106). Arithmetic is over unbounded integers with floor division and non-negative modulus (spec/00_scope.md R12);
on a positive divisor Lean's `/` and `%` of `Int` are those. -/

namespace Sys2Proof.Machine

open Sys2Proof

/-- `EPOCH_OFFSET_DAYS` (spec/00_scope.md R10): days from 1958-01-01 to 1970-01-01, negative. -/
def epochOffsetDays : Int := -4383

/-- `SECONDS_PER_DAY` (spec/00_scope.md R10). -/
def secondsPerDay : Int := 86400

/-- `MS_OF_DAY_MAX` (spec/00_scope.md R11). -/
def msOfDayMax : Nat := 86399999

/-- The largest sub-second nanosecond count TS_FROM_UNIX accepts (spec/43_timestamp.md R103). -/
def nanosMax : Nat := 999999999

/-- Days since 1970-01-01 of a day count (spec/43_timestamp.md R91). -/
def daysSince1970 (d : Half) : Int := (d.toNat : Int) + epochOffsetDays

/-- The UNIX seconds of `unix_from_cds(d, m)` (spec/43_timestamp.md R91): the sub-day part is added also when the day part
is negative (R92). -/
def unixSeconds (d : Half) (m : Word) : Int :=
  daysSince1970 d * secondsPerDay + ((m.toNat / 1000 : Nat) : Int)

/-- The sub-second nanoseconds of `unix_from_cds(d, m)` (spec/43_timestamp.md R91). -/
def unixNanos (m : Word) : Nat := m.toNat % 1000 * 1000000

/-- A calendar date. -/
structure CivilDate where
  year : Int
  month : Int
  mday : Int
deriving DecidableEq, Repr

/-- `civil_from_days(z)` (spec/43_timestamp.md R93): the proleptic Gregorian date of a count of days since 1970-01-01. -/
def civilFromDays (z0 : Int) : CivilDate :=
  let z := z0 + 719468
  let era := z / 146097
  let doe := z - era * 146097
  let yoe := (doe - doe / 1460 + doe / 36524 - doe / 146096) / 365
  let y := yoe + era * 400
  let doy := doe - (365 * yoe + yoe / 4 - yoe / 100)
  let mp := (5 * doy + 2) / 153
  let dd := doy - (153 * mp + 2) / 5 + 1
  let mo := if mp < 10 then mp + 3 else mp - 9
  ⟨if mo ≤ 2 then y + 1 else y, mo, dd⟩

/-- Seconds of the day of a millisecond count (spec/43_timestamp.md R94). -/
def secondOfDay (m : Word) : Nat := m.toNat / 1000

/-- The committed timestamp of a p-field, a day count and a millisecond count: what `commit` and `write_calendar` put into
the registers (spec/43_timestamp.md R97, R98). -/
def committedOf (pf : Byte) (d : Half) (m : Word) : Committed :=
  let s64 := BitVec.ofInt 64 (unixSeconds d m)
  let date := civilFromDays (daysSince1970 d)
  let sod := secondOfDay m
  { pfield := pf
    day := d
    ms := m
    secLo := s64.extractLsb' 0 32
    secHi := s64.extractLsb' 32 32
    ns := BitVec.ofNat 32 (unixNanos m)
    year := BitVec.ofInt 16 date.year
    month := BitVec.ofInt 8 date.month
    mday := BitVec.ofInt 8 date.mday
    hour := BitVec.ofNat 8 (sod / 3600)
    minute := BitVec.ofNat 8 (sod % 3600 / 60)
    second := BitVec.ofNat 8 (sod % 60) }

/-- `commit(d, m)` (spec/43_timestamp.md R97): writes every register of the committed timestamp and sets TS_VALID. -/
def commitTimestamp (d : Half) (m : Word) (s : State) : State :=
  { s with tsv := committedOf s.params.pfield d m, status := { s.status with tsValid := true } }

/-- The result code of TS_CONVERT (spec/43_timestamp.md R96). -/
def convertResult (m : Word) : ResultCode :=
  if msOfDayMax < m.toNat then .range else .ok

/-- TS_CONVERT (spec/43_timestamp.md R96). -/
def execTsConvert (s : State) : Answer :=
  finish (convertResult s.tsIn.ms) (commitTimestamp s.tsIn.day s.tsIn.ms) s

/-- `cds_from_unix(s, ns)` (spec/43_timestamp.md R101): day count and millisecond count, `none` where the day count does
not fit 16 bits. -/
def cdsFromUnix (sec : Int) (ns : Nat) : Option (Half × Word) :=
  let zu := sec / secondsPerDay
  let sod := sec % secondsPerDay
  let d := zu - epochOffsetDays
  let m := sod * 1000 + ((ns / 1000000 : Nat) : Int)
  if d < 0 ∨ d > 65535 then none else some (BitVec.ofInt 16 d, BitVec.ofInt 32 m)

/-- TS_FROM_UNIX (spec/43_timestamp.md R103): the nanosecond check comes before the day-range check
(spec/60_exceptions.md R113). -/
def execTsFromUnix (s : State) : Answer :=
  if nanosMax < unixInNanos s then finish .range (fun s => s) s
  else
    match cdsFromUnix (unixInSeconds s) (unixInNanos s) with
    | none => finish .range (fun s => s) s
    | some (d, m) => finish .ok (commitTimestamp d m) s

/-- `ts_frame(pf, d, m)` (spec/43_timestamp.md R104): 7 bytes under CDS7; 8 bytes under RSV8, the reserved byte 0x00 (R105).
All fields big-endian. -/
def tsFrameBytes (layout : TsLayout) (pf : Byte) (d : Half) (m : Word) : List Byte :=
  match layout with
  | .cds7 => [pf, firstByte d, secondByte d, lane m 0, lane m 1, lane m 2, lane m 3]
  | .rsv8 => [pf, firstByte d, secondByte d, 0x00, lane m 0, lane m 1, lane m 2, lane m 3]

/-- Frame byte `k`; 0x00 past the frame's end, which is what TS_FRAME1[7:0] holds under CDS7 (spec/43_timestamp.md R105,
R106). -/
def byteOf (f : List Byte) (k : Nat) : Byte := f.getD k 0x00

/-- The frame registers of a frame (spec/43_timestamp.md R106, lanes of spec/20_memory.md R52). -/
def tsFrameWords (f : List Byte) : TsFrame where
  w0 := frameWord (byteOf f 0) (byteOf f 1) (byteOf f 2) (byteOf f 3)
  w1 := frameWord (byteOf f 4) (byteOf f 5) (byteOf f 6) (byteOf f 7)

/-- The writes of TS_PACK: the frame registers (spec/43_timestamp.md R106). -/
def storeTsFrame (f : TsFrame) (s : State) : State := { s with tsFrame := f }

/-- The result code of TS_PACK (spec/43_timestamp.md R106). -/
def tsPackResult (s : State) : ResultCode :=
  if s.status.tsValid then .ok else .noValue

/-- TS_PACK (spec/43_timestamp.md R106): the frame of the committed value, not of the operand registers. -/
def execTsPack (s : State) : Answer :=
  finish (tsPackResult s)
    (storeTsFrame (tsFrameWords (tsFrameBytes s.params.tsLayout s.tsv.pfield s.tsv.day s.tsv.ms))) s

end Sys2Proof.Machine
end

