-- ==== Sys2Proof/Machine/Dispatch.lean ====
section
/-! DEFINITION. The command of each constructor: one arm, one direct call of its meaning (spec/30_encoding.md R60). -/

namespace Sys2Proof.Machine

open Sys2Proof

def exec (i : Instr) (s : State) : Host.Outcome State Fault Refusal :=
  match i with
  | .nop => Sys2Proof.Machine.execNop s
  | .statClr => Sys2Proof.Machine.execStatClr s
  | .crcInit => Sys2Proof.Machine.execCrcInit s
  | .crcByte imm8 => Sys2Proof.Machine.execCrcByte imm8 s
  | .crcHalf imm16 => Sys2Proof.Machine.execCrcHalf imm16 s
  | .crcCheck imm16 => Sys2Proof.Machine.execCrcCheck imm16 s
  | .shPack => Sys2Proof.Machine.execShPack s
  | .shUnpack => Sys2Proof.Machine.execShUnpack s
  | .tsConvert => Sys2Proof.Machine.execTsConvert s
  | .tsFromUnix => Sys2Proof.Machine.execTsFromUnix s
  | .tsPack => Sys2Proof.Machine.execTsPack s

end Sys2Proof.Machine
end

