-- ==== Sys2Proof/Machine/Step.lean ====
section
/-! DEFINITION. One step: the host's next move (spec/10_state.md R13, R14; spec/60_exceptions.md R123). A write to CMD
decodes its word and runs the command, all within the one step (spec/20_memory.md R47). -/

namespace Sys2Proof.Machine

open Sys2Proof

/-- The host goes on after an answer of the block; a fault or a refusal stops the run. -/
def thenAdvance : Answer → Answer
  | .next t => .next (advance t)
  | .fault f => .fault f
  | .refused r => .refused r

/-- A write of `v` to CMD (spec/20_memory.md R47): an illegal word ends with ILLEGAL_CMD and writes nothing else
(spec/30_encoding.md R61); any other runs its command. -/
def runCommand (v : Word) (s : State) : Answer :=
  match decode v with
  | .error _ => finish .illegalCmd (fun s => s) s
  | .ok i => exec i s

/-- What a move does to the block and to the host's record of reads. -/
def applyMove (m : HostMove) (s : State) : Answer :=
  match m with
  | .reset => .next (platformReset s)
  | .read addr size =>
    match selectReg s.params addr size with
    | .error f => .fault f
    | .ok r => .next (recordRead (readReg r s) s)
  | .write addr size v =>
    match selectReg s.params addr size with
    | .error f => .fault f
    | .ok .CMD => runCommand v s
    | .ok r => .next (writeReg r v s)

/-- One step: the host's next move, then the host's index goes on by one. At the end of the host's program nothing
happens: the block does nothing between commands (spec/60_exceptions.md R122; notes/assumptions/3.md). -/
def step (s : State) : Host.Outcome State Fault Refusal :=
  match fetchMove s with
  | none => .next s
  | some m => thenAdvance (applyMove m s)

/-- `s` with the host's next move a write to CMD of the command word whose bits are the low `nbits` bits of `w`, so that
the very next step runs it. The program is the host's and loaded from outside the block (notes/assumptions/3.md). -/
def State.withFetchWord (s : State) (nbits w : Nat) : State :=
  { s with program := placeMove .reset (.write s.params.base 4 (BitVec.ofNat 32 (w % 2 ^ nbits))) s.program s.pc }

end Sys2Proof.Machine
end

