-- ==== Sys2Proof/Machine/Asm.lean ====
section
/-! DEFINITION. The host-side assembler: how a line becomes host moves (spec/30_encoding.md R64, R65) and how a program is
its lines in order (R66). -/

namespace Sys2Proof.Machine

open Sys2Proof

/-- `wr <REG>, <imm32>`: `MemWrite(P_BASE + offset(REG), 4, imm32)` (spec/30_encoding.md R64). -/
def wrMove (p : Params) (r : RegName) (v : Word) : HostMove := .write (p.base + regOffset r) 4 v

/-- `rd <REG>`: `MemRead(P_BASE + offset(REG), 4)` (spec/30_encoding.md R64). -/
def rdMove (p : Params) (r : RegName) : HostMove := .read (p.base + regOffset r) 4

/-- The word `(b << 8) OR 0x11` of `crc.byte b` (spec/30_encoding.md R65). -/
def crcByteWord (b : Int) : Word := (BitVec.ofInt 32 b <<< 8) ||| 0x11#32

/-- The word `(h << 16) OR op` of `crc.half h` and `crc.check h` (spec/30_encoding.md R65). -/
def crcHalfWord (h : Int) (op : Word) : Word := (BitVec.ofInt 32 h <<< 16) ||| op

/-- The value `(sub << 24) OR (svc << 16) OR (ver << 8) OR ack` of `sh.load` (spec/30_encoding.md R65). -/
def shLoadWord (ver : Nibble) (ack svc sub : Byte) : Word :=
  (sub.setWidth 32 <<< 24) ||| (svc.setWidth 32 <<< 16) ||| (ver.setWidth 32 <<< 8) ||| ack.setWidth 32

/-- The moves of a line, or `none` where the assembler refuses it: an immediate operand out of range is refused, never
truncated (spec/30_encoding.md R65). -/
def assembleLine (p : Params) (l : AsmLine) : Option (List HostMove) :=
  match l with
  | .wr r v => some [wrMove p r v]
  | .rd r => some [rdMove p r]
  | .nop => some [wrMove p .CMD 0x00000000]
  | .statClr => some [wrMove p .CMD 0x00000001]
  | .crcInit => some [wrMove p .CMD 0x00000010]
  | .crcByte b => if 0 ≤ b ∧ b ≤ 0xFF then some [wrMove p .CMD (crcByteWord b)] else none
  | .crcHalf h => if 0 ≤ h ∧ h ≤ 0xFFFF then some [wrMove p .CMD (crcHalfWord h 0x12)] else none
  | .crcCheck h => if 0 ≤ h ∧ h ≤ 0xFFFF then some [wrMove p .CMD (crcHalfWord h 0x13)] else none
  | .shPack => some [wrMove p .CMD 0x00000020]
  | .shUnpack => some [wrMove p .CMD 0x00000021]
  | .tsConvert => some [wrMove p .CMD 0x00000030]
  | .tsFromUnix => some [wrMove p .CMD 0x00000031]
  | .tsPack => some [wrMove p .CMD 0x00000032]
  | .shLoad ver ack svc sub src => some [wrMove p .SH_FIELDS (shLoadWord ver ack svc sub), wrMove p .SH_SRCID src]
  | .unixLoad s => some [wrMove p .UNIX_IN_LO (s.setWidth 32), wrMove p .UNIX_IN_HI ((s.sshiftRight 32).setWidth 32)]

/-- A program: the moves of its lines, first to last (spec/30_encoding.md R66); `none` if a line is refused. -/
def assemble (p : Params) : List AsmLine → Option (List HostMove)
  | [] => some []
  | l :: rest =>
    match assembleLine p l, assemble p rest with
    | some ms, some more => some (ms ++ more)
    | _, _ => none

end Sys2Proof.Machine
end

