-- ==== Sys2Proof/Safety.lean ====
section
/-! DEFINITION. The terms the claims are made in: host programs without a bus error, runs of commands, the stored bits of
each register, a Gregorian calendar counted out day by day (independent of `civilFromDays`), and the invariants of the
block. Nothing in the machine depends on this file. -/

namespace Sys2Proof.Safety

open Sys2Proof Sys2Proof.Machine

/-! ### Host programs and runs of commands -/

/-- Every move the host has still to make is one it may make (spec/60_exceptions.md R123). -/
def LegalProgram (s : State) : Prop :=
  ∀ m ∈ s.program.drop s.pc, HostMove.wellFormed s.params m = true

/-- The host's next move is the write of `w` to CMD (spec/20_memory.md R47). -/
def NextCommand (s : State) (w : Word) : Prop := s.program[s.pc]? = some (.write s.params.base 4 w)

/-- The host's next move is the platform's reset (spec/70_reset_and_hazards.md R125). -/
def NextReset (s : State) : Prop := s.program[s.pc]? = some .reset

/-- The host's next move is a mapped write of `v` to the register `r`. -/
def NextWrite (s : State) (r : RegName) (v : Word) : Prop :=
  s.program[s.pc]? = some (.write (s.params.base + regOffset r) 4 v)

/-- The host's next move is a mapped read of the register `r`. -/
def NextRead (s : State) (r : RegName) : Prop :=
  s.program[s.pc]? = some (.read (s.params.base + regOffset r) 4)

/-- Commands run one after another, stopping at the first that gives no next state. -/
def runCommands : List Instr → State → Answer
  | [], s => .next s
  | i :: rest, s =>
    match exec i s with
    | .next t => runCommands rest t
    | .fault f => .fault f
    | .refused r => .refused r

/-- The bytes a feeding command folds into the digest, in wire order (spec/41_crc.md R77, R78); `none` for a command that
feeds nothing. -/
def fedBytes : Instr → Option (List Byte)
  | .nop => none
  | .statClr => none
  | .crcInit => none
  | .crcByte b => some [b]
  | .crcHalf h => some [h.extractLsb' 8 8, h.extractLsb' 0 8]
  | .crcCheck _ => none
  | .shPack => none
  | .shUnpack => none
  | .tsConvert => none
  | .tsFromUnix => none
  | .tsPack => none

/-- The bytes fed by a list of CRC_BYTE and CRC_HALF commands; `none` if another command is among them. -/
def fedByAll : List Instr → Option (List Byte)
  | [] => some []
  | i :: rest =>
    match fedBytes i, fedByAll rest with
    | some m, some more => some (m ++ more)
    | _, _ => none

/-- A message with bit `j` of byte `k` flipped (spec/41_crc.md R82). -/
def flipBit (m : List Byte) (k j : Nat) : List Byte := m.modify k (fun b => b ^^^ (1#8 <<< j))

/-- The stored bits of each register, 1 where a stored field covers the bit (spec/10_state.md section 2 and R38). -/
def storedBits : RegName → Word
  | .CMD => 0x00000000
  | .STATUS => 0x000000FF
  | .CRC => 0x0000FFFF
  | .CHK_INFO => 0xFFFFFFFF
  | .SH_FIELDS => 0xFFFF0FFF
  | .SH_SRCID => 0x0000FFFF
  | .SH_FRAME0 => 0xFFFFFFFF
  | .SH_FRAME1 => 0xFF000000
  | .TS_DAY_IN => 0x0000FFFF
  | .TS_MS_IN => 0xFFFFFFFF
  | .UNIX_IN_LO => 0xFFFFFFFF
  | .UNIX_IN_HI => 0xFFFFFFFF
  | .UNIX_IN_NS => 0xFFFFFFFF
  | .TSV_PDAY => 0xFF00FFFF
  | .TSV_MS => 0xFFFFFFFF
  | .UNIX_LO => 0xFFFFFFFF
  | .UNIX_HI => 0xFFFFFFFF
  | .NANOS => 0xFFFFFFFF
  | .CAL_DATE => 0xFFFFFFFF
  | .CAL_TIME => 0x00FFFFFF
  | .TS_FRAME0 => 0xFFFFFFFF
  | .TS_FRAME1 => 0xFFFFFFFF
  | .CONFIG => 0xFFFFFF1F

/-- The RW registers of the map (spec/10_state.md section 2). -/
def rwRegisters : List RegName :=
  [.CRC, .SH_FIELDS, .SH_SRCID, .SH_FRAME0, .SH_FRAME1, .TS_DAY_IN, .TS_MS_IN, .UNIX_IN_LO, .UNIX_IN_HI, .UNIX_IN_NS]

/-- The RO registers, as spec/20_memory.md R46 lists them. -/
def roRegisters : List RegName :=
  [.STATUS, .CHK_INFO, .TSV_PDAY, .TSV_MS, .UNIX_LO, .UNIX_HI, .NANOS, .CAL_DATE, .CAL_TIME, .TS_FRAME0, .TS_FRAME1,
   .CONFIG]

/-- The unassigned opcodes, as the ranges of spec/30_encoding.md R61. -/
def unassignedOp (op : Nat) : Bool :=
  (0x02 ≤ op && op ≤ 0x0F) || (0x14 ≤ op && op ≤ 0x1F) || (0x22 ≤ op && op ≤ 0x2F) || (0x33 ≤ op && op ≤ 0xFF)

/-- The opcodes of format F0 (spec/30_encoding.md R57, R60). -/
def f0Opcodes : List Nat := [0x00, 0x01, 0x10, 0x20, 0x21, 0x30, 0x31, 0x32]

/-! ### A calendar counted out -/

/-- The Gregorian leap-year rule. -/
def isLeapYear (y : Nat) : Bool := y % 4 == 0 && (y % 100 != 0 || y % 400 == 0)

/-- Days in a month of a Gregorian year; 0 for a month number outside 1 to 12. -/
def monthLength (y mo : Nat) : Nat :=
  match mo with
  | 1 => 31
  | 2 => if isLeapYear y then 29 else 28
  | 3 => 31
  | 4 => 30
  | 5 => 31
  | 6 => 30
  | 7 => 31
  | 8 => 31
  | 9 => 30
  | 10 => 31
  | 11 => 30
  | 12 => 31
  | _ => 0

/-- Days in the first `n` months of a year. -/
def daysInMonths (y : Nat) : Nat → Nat
  | 0 => 0
  | n + 1 => daysInMonths y n + monthLength y (n + 1)

/-- Days in the `n` years 1958 to 1957 + n. -/
def daysInYears : Nat → Nat
  | 0 => 0
  | n + 1 => daysInYears n + (if isLeapYear (1958 + n) then 366 else 365)

/-- The day count, since 1958-01-01, of a Gregorian date from 1958 on. -/
def dayCountOf (y mo dd : Nat) : Nat := daysInYears (y - 1958) + daysInMonths y (mo - 1) + (dd - 1)

/-- A date of the range of spec/10_state.md R35. -/
def ValidDate (y mo dd : Nat) : Prop :=
  1958 ≤ y ∧ y ≤ 2137 ∧ 1 ≤ mo ∧ mo ≤ 12 ∧ 1 ≤ dd ∧ dd ≤ monthLength y mo

/-! ### What the committed timestamp means -/

/-- The registers of a committed timestamp agree with one another (spec/43_timestamp.md R90): UNIX seconds and nanoseconds
are those of the day and millisecond counts (R91), the calendar date is the Gregorian date of the day count (R93), and the
time of day is that of the whole seconds of the millisecond count (R94). -/
def Consistent (c : Committed) : Prop :=
  c.ms.toNat ≤ 86399999 ∧
  (pair64 c.secHi c.secLo).toInt = ((c.day.toNat : Int) - 4383) * 86400 + ((c.ms.toNat / 1000 : Nat) : Int) ∧
  c.ns.toNat = c.ms.toNat % 1000 * 1000000 ∧
  ValidDate c.year.toNat c.month.toNat c.mday.toNat ∧
  dayCountOf c.year.toNat c.month.toNat c.mday.toNat = c.day.toNat ∧
  c.hour.toNat < 24 ∧ c.minute.toNat < 60 ∧ c.second.toNat < 60 ∧
  c.hour.toNat * 3600 + c.minute.toNat * 60 + c.second.toNat = c.ms.toNat / 1000

/-- The committed timestamp registers at their reset values (spec/10_state.md R21, R39). -/
def noTimestamp : Committed := ⟨0, 0, 0, 0, 0, 0, 0, 0, 0, 0, 0, 0⟩

/-! ### Invariants -/

/-- ERR never holds a reserved code (spec/60_exceptions.md R109), and while ERR is not OK, STICKY is 1
(spec/10_state.md R18). -/
def ResultCodeInv (s : State) : Prop :=
  s.status.err.toNat ≤ 5 ∧ (s.status.err ≠ 0 → s.status.sticky = true)

/-- With TS_VALID = 1 the committed timestamp is consistent and carries the block's p-field; with TS_VALID = 0 its
registers are at their reset values (spec/10_state.md R21, R33; spec/43_timestamp.md R90, R97). -/
def TimestampInv (s : State) : Prop :=
  if s.status.tsValid then s.tsv.pfield = s.params.pfield ∧ Consistent s.tsv else s.tsv = noTimestamp

/-- The byte of the timestamp frame registers that carries no field is 0x00 (spec/10_state.md R37,
spec/43_timestamp.md R105): TS_FRAME1[7:0] under CDS7, the reserved byte TS_FRAME0[7:0] under RSV8. -/
def FrameInv (s : State) : Prop :=
  match s.params.tsLayout with
  | .cds7 => s.tsFrame.w1.extractLsb' 0 8 = 0#8
  | .rsv8 => s.tsFrame.w0.extractLsb' 0 8 = 0#8

/-- The invariant of the block. -/
def BlockInv (s : State) : Prop := ResultCodeInv s ∧ TimestampInv s ∧ FrameInv s

end Sys2Proof.Safety
end

