-- ==== Sys2Proof/Certificates/Slice0/Obligations.lean ====
section
/-! DEFINITION. The statements for the provers: one `def Obligations.<Name> : Prop` each. The docstring of each names the
rules of spec/ it formalises. An equation `exec i s = .next { s with … }` says the instruction's result and its whole frame:
every field it does not name is as before. -/

open Sys2Proof Sys2Proof.Machine Sys2Proof.Safety

/-! ### Reset and the register window -/

/-- R39: what reset leaves, for every value of the parameters: every stored field, and every register as the host reads it.
That `State.reset` takes the default parameters is the model's choice (notes/assumptions/2.md). -/
def Obligations.ResetLeavesResetColumn : Prop :=
  ∀ p : Params, ∀ s : State, s = State.resetWith p →
    s.crc.value = 0xFFFF#16 ∧ s.crc.expected = 0#16 ∧ s.crc.found = 0#16 ∧
    s.status.err = 0#4 ∧ s.status.sticky = false ∧ s.status.matched = false ∧ s.status.verKnown = false ∧
    s.status.tsValid = false ∧
    s.sh.version = 0#4 ∧ s.sh.ack = 0#8 ∧ s.sh.service = 0#8 ∧ s.sh.subservice = 0#8 ∧ s.sh.sourceId = 0#16 ∧
    s.sh.b0 = 0#8 ∧ s.sh.b1 = 0#8 ∧ s.sh.b2 = 0#8 ∧ s.sh.b3 = 0#8 ∧ s.sh.b4 = 0#8 ∧
    s.tsIn.day = 0#16 ∧ s.tsIn.ms = 0#32 ∧ s.tsIn.secLo = 0#32 ∧ s.tsIn.secHi = 0#32 ∧ s.tsIn.ns = 0#32 ∧
    s.tsv = noTimestamp ∧ s.tsFrame.w0 = 0#32 ∧ s.tsFrame.w1 = 0#32 ∧
    (∀ r, readReg r s =
      match r with
      | .CRC => 0x0000FFFF#32
      | .CONFIG => configWord p
      | _ => 0#32)

/-- R125: the platform's reset, taken between transactions, puts every stored field at its reset value and keeps CONFIG; a
reset that follows a CMD write leaves what a reset instead of it leaves. That a reset is a move which keeps the host's program
and its reads and advances its index is no rule of the spec: it is the model's choice (notes/assumptions/3.md, DESIGN CHOICE). -/
def Obligations.PlatformResetRestoresEveryField : Prop :=
  (∀ s, NextReset s →
    step s = .next { State.resetWith s.params with program := s.program, pc := s.pc + 1, reads := s.reads }) ∧
  (∀ w s t, runCommand w s = .next t → platformReset t = platformReset s)

/-- R45: a mapped read returns the register's stored fields at their bits and every reserved bit as 0, and changes no
register. -/
def Obligations.MappedReadReturnsRegister : Prop :=
  (∀ s r, NextRead s r → step s = .next { s with pc := s.pc + 1, reads := readReg r s :: s.reads }) ∧
  (∀ s r, readReg r s &&& ~~~ storedBits r = 0#32) ∧
  (∀ s r, NextRead s r → ∃ t, step s = .next t ∧ ∀ r', readReg r' t = readReg r' s) ∧
  (∀ s, readReg .CMD s = 0#32) ∧
  (∀ s w, w = readReg .STATUS s →
    w.extractLsb' 0 4 = s.status.err ∧ w.getLsbD 4 = s.status.sticky ∧ w.getLsbD 5 = s.status.matched ∧
    w.getLsbD 6 = s.status.verKnown ∧ w.getLsbD 7 = s.status.tsValid) ∧
  (∀ s, (readReg .CRC s).extractLsb' 0 16 = s.crc.value) ∧
  (∀ s w, w = readReg .CHK_INFO s → w.extractLsb' 16 16 = s.crc.expected ∧ w.extractLsb' 0 16 = s.crc.found) ∧
  (∀ s w, w = readReg .SH_FIELDS s →
    w.extractLsb' 0 8 = s.sh.ack ∧ w.extractLsb' 8 4 = s.sh.version ∧ w.extractLsb' 16 8 = s.sh.service ∧
    w.extractLsb' 24 8 = s.sh.subservice) ∧
  (∀ s, (readReg .SH_SRCID s).extractLsb' 0 16 = s.sh.sourceId) ∧
  (∀ s w, w = readReg .SH_FRAME0 s →
    w.extractLsb' 24 8 = s.sh.b0 ∧ w.extractLsb' 16 8 = s.sh.b1 ∧ w.extractLsb' 8 8 = s.sh.b2 ∧
    w.extractLsb' 0 8 = s.sh.b3) ∧
  (∀ s, (readReg .SH_FRAME1 s).extractLsb' 24 8 = s.sh.b4) ∧
  (∀ s, (readReg .TS_DAY_IN s).extractLsb' 0 16 = s.tsIn.day ∧ readReg .TS_MS_IN s = s.tsIn.ms ∧
    readReg .UNIX_IN_LO s = s.tsIn.secLo ∧ readReg .UNIX_IN_HI s = s.tsIn.secHi ∧ readReg .UNIX_IN_NS s = s.tsIn.ns) ∧
  (∀ s w, w = readReg .TSV_PDAY s → w.extractLsb' 24 8 = s.tsv.pfield ∧ w.extractLsb' 0 16 = s.tsv.day) ∧
  (∀ s, readReg .TSV_MS s = s.tsv.ms ∧ readReg .UNIX_LO s = s.tsv.secLo ∧ readReg .UNIX_HI s = s.tsv.secHi ∧
    readReg .NANOS s = s.tsv.ns) ∧
  (∀ s w, w = readReg .CAL_DATE s →
    w.extractLsb' 16 16 = s.tsv.year ∧ w.extractLsb' 8 8 = s.tsv.month ∧ w.extractLsb' 0 8 = s.tsv.mday) ∧
  (∀ s w, w = readReg .CAL_TIME s →
    w.extractLsb' 16 8 = s.tsv.hour ∧ w.extractLsb' 8 8 = s.tsv.minute ∧ w.extractLsb' 0 8 = s.tsv.second) ∧
  (∀ s, readReg .TS_FRAME0 s = s.tsFrame.w0 ∧ readReg .TS_FRAME1 s = s.tsFrame.w1) ∧
  (∀ s w, w = readReg .CONFIG s →
    w.extractLsb' 0 4 = s.params.pusVersion ∧ w.getLsbD 4 = decide (s.params.tsLayout = .rsv8) ∧
    w.extractLsb' 8 8 = s.params.pfield ∧ w.extractLsb' 16 16 = s.params.known)

/-- R46: a mapped write sets an RW register's stored fields and nothing else, leaves an RO register as it is, and to CMD runs
a command. -/
def Obligations.MappedWriteEffect : Prop :=
  (∀ s r v, r ∈ rwRegisters → NextWrite s r v →
    ∃ t, step s = .next t ∧ readReg r t = v &&& storedBits r ∧ (∀ r', r' ≠ r → readReg r' t = readReg r' s) ∧
      t.params = s.params ∧ t.program = s.program ∧ t.pc = s.pc + 1 ∧ t.reads = s.reads) ∧
  (∀ s r v, r ∈ roRegisters → NextWrite s r v → step s = .next { s with pc := s.pc + 1 }) ∧
  (∀ s v, NextWrite s .CMD v → step s = thenAdvance (runCommand v s))

/-- R38: reserved bits read 0, and a host write to them has no effect and raises no error; the reserved bits the rule
names. -/
def Obligations.ReservedBitsReadZeroIgnoreWrites : Prop :=
  (∀ s r, readReg r s &&& ~~~ storedBits r = 0#32) ∧
  (∀ s r v, r ≠ .CMD → NextWrite s r v →
    step s = .next { writeReg r (v &&& storedBits r) s with pc := s.pc + 1 }) ∧
  ~~~ storedBits .SH_FIELDS = 0x0000F000#32 ∧ ~~~ storedBits .SH_SRCID = 0xFFFF0000#32 ∧
  ~~~ storedBits .SH_FRAME1 = 0x00FFFFFF#32 ∧ ~~~ storedBits .TS_DAY_IN = 0xFFFF0000#32 ∧
  ~~~ storedBits .CRC = 0xFFFF0000#32 ∧ ~~~ storedBits .STATUS = 0xFFFFFF00#32 ∧
  ~~~ storedBits .TSV_PDAY = 0x00FF0000#32 ∧ ~~~ storedBits .CAL_TIME = 0xFF000000#32 ∧
  ~~~ storedBits .CONFIG = 0x000000E0#32

/-- R42: inside the window, a transaction is refused exactly when its offset is no multiple of 4, is above 0x58, or its size is
not 4; a refused one is a fault with no next state and no data; a mapped one is not refused. -/
def Obligations.RefusedTransactionIsBusError : Prop :=
  ∀ s off size v, off < 256 →
    (s.program[s.pc]? = some (.read (s.params.base + off) size) →
      if off % 4 = 0 ∧ off ≤ 0x58 ∧ size = 4 then ∃ t, step s = .next t else step s = .fault .busError) ∧
    (s.program[s.pc]? = some (.write (s.params.base + off) size v) →
      if off % 4 = 0 ∧ off ≤ 0x58 ∧ size = 4 then ∃ t, step s = .next t else step s = .fault .busError)

/-- R41, the model's choice of notes/assumptions/5.md: a transaction outside the 256-byte window reaches no register and
stops the run under a name of its own. -/
def Obligations.OutsideWindowFaults : Prop :=
  ∀ s addr size v, addr < s.params.base ∨ s.params.base + 256 ≤ addr →
    (s.program[s.pc]? = some (.read addr size) → step s = .fault .outsideWindow) ∧
    (s.program[s.pc]? = some (.write addr size v) → step s = .fault .outsideWindow)

/-- R36: the fields of CONFIG, its value under the defaults, and that it reads the same at every time. -/
def Obligations.ConfigIsConstant : Prop :=
  (∀ s w, w = readReg .CONFIG s →
    w.extractLsb' 0 4 = s.params.pusVersion ∧ w.getLsbD 4 = decide (s.params.tsLayout = .rsv8) ∧
    w.extractLsb' 5 3 = 0#3 ∧ w.extractLsb' 8 8 = s.params.pfield ∧
    ∀ v, v < 16 → w.getLsbD (16 + v) = s.params.known.getLsbD v) ∧
  readReg .CONFIG State.reset = 0x00074002#32 ∧
  (∀ s t, step s = .next t → readReg .CONFIG t = readReg .CONFIG s ∧ t.params = s.params)

/-- R55: rewriting an RW register with the value it already holds changes nothing, and a read is idempotent. -/
def Obligations.RewriteIsIdempotent : Prop :=
  (∀ s r, r ∈ rwRegisters → writeReg r (readReg r s) s = s) ∧
  (∀ s r v, writeReg r v (writeReg r v s) = writeReg r v s) ∧
  (∀ s r t, NextRead s r → step s = .next t → NextRead t r →
    ∃ u, step t = .next u ∧ u.reads = readReg r s :: t.reads ∧ t.reads = readReg r s :: s.reads)

/-! ### Decoding -/

/-- R56, R57, R60: decoding and encoding agree: every well-formed command decodes from its word, and a word that decodes to a
command is that command's word. -/
def Obligations.DecodeEncodeAgree : Prop :=
  (∀ i : Instr, i.wellFormed = true → decode (encode i) = .ok i) ∧
  (∀ w i, decode w = .ok i → i.wellFormed = true ∧ encode i = w)

/-- R60: at most one row of the opcode map selects a word, and the decoder's command is that of the row that selects it. -/
def Obligations.DecoderFollowsOpcodeMap : Prop :=
  (∀ w, ∀ r₁ ∈ opcodeMap, ∀ r₂ ∈ opcodeMap, r₁.selects w = true → r₂.selects w = true → r₁ = r₂) ∧
  (∀ w, ∀ r ∈ opcodeMap, r.selects w = true → ∃ i, decode w = .ok i ∧ i.mnemonic = r.mnemonic) ∧
  (∀ w i, decode w = .ok i → ∃ r ∈ opcodeMap, r.selects w = true ∧ r.mnemonic = i.mnemonic)

/-- R61: which words are illegal, in the rule's two ways; that there are 245 unassigned opcodes; and what an illegal word
does. -/
def Obligations.IllegalWordsEndWithIllegalCmd : Prop :=
  (∀ w : Word, decode w = .error .unassignedOpcode ↔ unassignedOp (w.toNat % 256) = true) ∧
  (∀ w : Word, decode w = .error .mustBeZero ↔
    (w.toNat % 256 ∈ f0Opcodes ∧ ¬ (w.toNat / 256 % 256 = 0 ∧ w.toNat / 65536 = 0)) ∨
    (w.toNat % 256 = 0x11 ∧ w.toNat / 65536 ≠ 0) ∨
    ((w.toNat % 256 = 0x12 ∨ w.toNat % 256 = 0x13) ∧ w.toNat / 256 % 256 ≠ 0)) ∧
  ((List.range 256).filter unassignedOp).length = 245 ∧
  (∀ s w e, decode w = .error e → NextCommand s w →
    step s = .next { s with pc := s.pc + 1, status := { s.status with err := 1#4, sticky := true } })

/-- R62: a write of zero to CMD is NOP. -/
def Obligations.ZeroWordIsNop : Prop :=
  decode 0x00000000#32 = .ok .nop ∧
  ∀ s, NextCommand s 0x00000000#32 →
    step s = .next { s with pc := s.pc + 1, status := { s.status with err := 0#4 } }

/-- A few words of spec/95_test_vectors.md, written out, decode to the commands they stand for. -/
def Obligations.SpecWordsDecode : Prop :=
  decode 0x00003111#32 = .ok (.crcByte 0x31) ∧ decode 0x12340012#32 = .ok (.crcHalf 0x1234) ∧
  decode 0x29B10013#32 = .ok (.crcCheck 0x29B1) ∧ decode 0x00000020#32 = .ok .shPack ∧
  decode 0x00000032#32 = .ok .tsPack ∧ decode 0x000000FF#32 = .error .unassignedOpcode ∧
  decode 0x80000030#32 = .error .mustBeZero

/-- R65: the expansion of every pseudo-instruction; a command's word decodes to the command; an immediate out of range is
refused; `sh.load` and `unix.load` leave their operands in the registers. -/
def Obligations.AssemblerExpandsPseudoInstructions : Prop :=
  (∀ p : Params,
    assembleLine p .nop = some [.write p.base 4 0x00000000#32] ∧
    assembleLine p .statClr = some [.write p.base 4 0x00000001#32] ∧
    assembleLine p .crcInit = some [.write p.base 4 0x00000010#32] ∧
    assembleLine p .shPack = some [.write p.base 4 0x00000020#32] ∧
    assembleLine p .shUnpack = some [.write p.base 4 0x00000021#32] ∧
    assembleLine p .tsConvert = some [.write p.base 4 0x00000030#32] ∧
    assembleLine p .tsFromUnix = some [.write p.base 4 0x00000031#32] ∧
    assembleLine p .tsPack = some [.write p.base 4 0x00000032#32]) ∧
  (∀ (p : Params) (b : Byte), ∃ w, assembleLine p (.crcByte b.toNat) = some [.write p.base 4 w] ∧
    w = (b.setWidth 32 <<< 8) ||| 0x11#32 ∧ decode w = .ok (.crcByte b)) ∧
  (∀ (p : Params) (h : Half), ∃ w, assembleLine p (.crcHalf h.toNat) = some [.write p.base 4 w] ∧
    w = (h.setWidth 32 <<< 16) ||| 0x12#32 ∧ decode w = .ok (.crcHalf h)) ∧
  (∀ (p : Params) (h : Half), ∃ w, assembleLine p (.crcCheck h.toNat) = some [.write p.base 4 w] ∧
    w = (h.setWidth 32 <<< 16) ||| 0x13#32 ∧ decode w = .ok (.crcCheck h)) ∧
  (∀ p l, assembleLine p l = none ↔ l.wellFormed = false) ∧
  (∀ p ver ack svc sub src, assembleLine p (.shLoad ver ack svc sub src) =
    some [.write (p.base + 0x10) 4 (shLoadWord ver ack svc sub), .write (p.base + 0x14) 4 src]) ∧
  (∀ s ver ack svc sub src, ∀ t, t = writeReg .SH_SRCID src (writeReg .SH_FIELDS (shLoadWord ver ack svc sub) s) →
    t.sh.version = ver ∧ t.sh.ack = ack ∧ t.sh.service = svc ∧ t.sh.subservice = sub ∧
    t.sh.sourceId = src.extractLsb' 0 16) ∧
  (∀ (p : Params) (x : BitVec 64), ∃ lo hi, assembleLine p (.unixLoad x) =
      some [.write (p.base + 0x28) 4 lo, .write (p.base + 0x2C) 4 hi] ∧
    ∀ s, unixInSeconds (writeReg .UNIX_IN_HI hi (writeReg .UNIX_IN_LO lo s)) = x.toInt)

/-! ### Steps -/

/-- R47: when the host's next move writes a word to CMD that decodes to a well-formed command, the step is `exec` of that
command at that state, with the host's index moved on by one. -/
def Obligations.StepRunsDecodedCommand : Prop :=
  ∀ s w i, NextCommand s w → decode w = .ok i → i.wellFormed = true →
    step s = match exec i s with
      | .next t => .next { t with pc := t.pc + 1 }
      | .fault f => .fault f
      | .refused r => .refused r

/-- The model's choice of notes/assumptions/3.md, on R122: at the end of the host's program a step changes nothing. -/
def Obligations.FinishedProgramIdles : Prop :=
  ∀ s : State, s.program.length ≤ s.pc → step s = .next s

/-- R123, R124: a step gives a next state exactly when the host's next move, if it has one, is one it may make, and no step is
ever refused. Two cases are the model's choice and no rule of the spec: a step past the program's last move gives a next state
(notes/assumptions/3.md, DESIGN CHOICE), and an access outside the window gives none (notes/assumptions/5.md, DEDUCED). -/
def Obligations.StepStopsOnlyOnForbiddenMoves : Prop :=
  (∀ s, (∃ t, step s = .next t) ↔ ∀ m, s.program[s.pc]? = some m → HostMove.wellFormed s.params m = true) ∧
  (∀ s r, step s ≠ .refused r)

/-- R124, R69, R109: every command, and every word written to CMD, gives a next state from every state, and ERR then holds one
of the codes 0 to 5. -/
def Obligations.EveryCommandCompletes : Prop :=
  (∀ i s, ∃ t, exec i s = .next t ∧ t.status.err.toNat ≤ 5) ∧
  (∀ w s, ∃ t, runCommand w s = .next t ∧ t.status.err.toNat ≤ 5)

/-- R134: a host program of legal moves ends after as many steps as it has moves left. R14 and R134 speak of transactions; that
the platform's reset is a move too, which advances the index and keeps the program, is the model's choice
(notes/assumptions/3.md, DESIGN CHOICE). -/
def Obligations.LegalProgramEndsAfterItsMoves : Prop :=
  ∀ s : State, LegalProgram s → s.pc ≤ s.program.length →
    ∃ t : State, Host.Core.run Sys2Proof.core (s.program.length - s.pc) s = .next t ∧
      t.pc = s.program.length ∧ t.program = s.program ∧ t.params = s.params

/-- R69, R40: a command depends on the block's state and its word alone: with any other host program, index and record of reads
it does the same to the block and leaves those as they are. -/
def Obligations.CommandIndependentOfHost : Prop :=
  ∀ i s prog pc reads,
    exec i { s with program := prog, pc := pc, reads := reads } =
      match exec i s with
      | .next t => .next { t with program := prog, pc := pc, reads := reads }
      | .fault f => .fault f
      | .refused r => .refused r

/-! ### Control commands -/

/-- R70: NOP. -/
def Obligations.NopOnlyReportsSuccess : Prop :=
  decode 0x00000000#32 = .ok .nop ∧
  (∀ s, exec .nop s = .next { s with status := { s.status with err := 0#4 } }) ∧
  decode 0x00000100#32 = .error .mustBeZero ∧ decode 0x00010000#32 = .error .mustBeZero ∧
  (∀ s, runCommand 0x00000100#32 s = .next { s with status := { s.status with err := 1#4, sticky := true } } ∧
    runCommand 0x00010000#32 s = .next { s with status := { s.status with err := 1#4, sticky := true } }) ∧
  (∀ s, readReg .STATUS s = 0x00000013#32 → ∃ t, exec .nop s = .next t ∧ readReg .STATUS t = 0x00000010#32)

/-- R71: STAT_CLR; it is the only command that clears STICKY. -/
def Obligations.StatClrClearsErrorRecord : Prop :=
  decode 0x00000001#32 = .ok .statClr ∧
  (∀ s, exec .statClr s = .next { s with status := { s.status with err := 0#4, sticky := false } }) ∧
  (∀ i s t, exec i s = .next t → s.status.sticky = true → t.status.sticky = false → i = .statClr) ∧
  (∀ s, readReg .STATUS s = 0x000000B3#32 → ∃ t, exec .statClr s = .next t ∧ readReg .STATUS t = 0x000000A0#32)

/-! ### CRC commands -/

/-- R76: CRC_INIT. -/
def Obligations.CrcInitStartsFreshDigest : Prop :=
  decode 0x00000010#32 = .ok .crcInit ∧
  (∀ s, exec .crcInit s = .next { s with crc := { s.crc with value := 0xFFFF#16 }, status := { s.status with err := 0#4 } }) ∧
  (∀ s t u, exec .crcInit s = .next t → exec .crcInit t = .next u → u = t)

/-- R77 (its pseudocode, encoding and status; the one clause of its corner cases that R73 contradicts is left out,
notes/assumptions/7.md): CRC_BYTE folds one byte; a word with a non-zero H field is illegal and leaves the CRC. -/
def Obligations.CrcByteFoldsOneByte : Prop :=
  (∀ b : Byte, decode ((b.setWidth 32 <<< 8) ||| 0x00000011#32) = .ok (.crcByte b)) ∧
  (∀ b s, exec (.crcByte b) s = .next { s with crc := { s.crc with value := crcUpdate s.crc.value b },
                                               status := { s.status with err := 0#4 } }) ∧
  (∀ (w : Word) s, w.extractLsb' 0 8 = 0x11#8 → w.extractLsb' 16 16 ≠ 0#16 →
    runCommand w s = .next { s with status := { s.status with err := 1#4, sticky := true } }) ∧
  crcUpdate 0xFFFF#16 0x31#8 = 0xC782#16 ∧ crcUpdate 0x0000#16 0x00#8 = 0x0000#16

/-- R78: CRC_HALF folds two bytes, the high byte first, as two CRC_BYTE commands do. -/
def Obligations.CrcHalfFoldsTwoBytes : Prop :=
  (∀ h : Half, decode ((h.setWidth 32 <<< 16) ||| 0x00000012#32) = .ok (.crcHalf h)) ∧
  (∀ (h : Half) s, exec (.crcHalf h) s =
    .next { s with crc := { s.crc with value := crcUpdate (crcUpdate s.crc.value (h.extractLsb' 8 8)) (h.extractLsb' 0 8) },
                   status := { s.status with err := 0#4 } }) ∧
  (∀ (h : Half) s, exec (.crcHalf h) s = runCommands [.crcByte (h.extractLsb' 8 8), .crcByte (h.extractLsb' 0 8)] s) ∧
  (∀ (w : Word) s, w.extractLsb' 0 8 = 0x12#8 → w.extractLsb' 8 8 ≠ 0#8 →
    runCommand w s = .next { s with status := { s.status with err := 1#4, sticky := true } }) ∧
  (∀ s, s.crc.value = 0xFFFF#16 → ∃ t, exec (.crcHalf 0x1234) s = .next t ∧ t.crc.value = 0x0EC9#16)

/-- R80: CRC_CHECK, on a match and on a mismatch. -/
def Obligations.CrcCheckComparesWithTrailer : Prop :=
  (∀ h : Half, decode ((h.setWidth 32 <<< 16) ||| 0x00000013#32) = .ok (.crcCheck h)) ∧
  (∀ h s, h = s.crc.value → exec (.crcCheck h) s =
    .next { s with crc := { s.crc with expected := h, found := s.crc.value },
                   status := { s.status with err := 0#4, matched := true } }) ∧
  (∀ h s, h ≠ s.crc.value → exec (.crcCheck h) s =
    .next { s with crc := { s.crc with expected := h, found := s.crc.value },
                   status := { s.status with err := 3#4, sticky := true, matched := false } }) ∧
  (∀ (w : Word) s, w.extractLsb' 0 8 = 0x13#8 → w.extractLsb' 8 8 ≠ 0#8 →
    runCommand w s = .next { s with status := { s.status with err := 1#4, sticky := true } }) ∧
  (∀ s, s.crc.value = 0x29B1#16 →
    (∃ t, exec (.crcCheck 0x29B1) s = .next t ∧ t.status.matched = true ∧ t.status.err = 0#4 ∧
      readReg .CHK_INFO t = 0x29B129B1#32) ∧
    (∃ t, exec (.crcCheck 0x29B0) s = .next t ∧ t.status.matched = false ∧ t.status.err = 3#4 ∧
      t.status.sticky = true ∧ readReg .CHK_INFO t = 0x29B029B1#32))

/-- R73, R9, R82: over GF(2), folding a message into the register is reduction modulo the generator polynomial
x^16 + x^12 + x^5 + 1: a digest started at `c` is `c * x^(8n) + m * x^16` modulo it, for a message `m` of `n` bytes. -/
def Obligations.CrcIsPolynomialRemainder : Prop :=
  let poly : (n : ℕ) → BitVec n → Polynomial (ZMod 2) := fun n v =>
    ∑ k ∈ Finset.range n, if v.getLsbD k then Polynomial.X ^ k else 0
  ∀ (c : Half) (m : List Byte),
    poly 16 (crcFold c m) =
      (poly 16 c * Polynomial.X ^ (8 * m.length) +
        m.foldl (fun q b => q * Polynomial.X ^ 8 + poly 8 b) 0 * Polynomial.X ^ 16) %ₘ
      (Polynomial.X ^ 16 + Polynomial.X ^ 12 + Polynomial.X ^ 5 + 1)

/-- R73, R77: the register values that a zero byte leaves as they are. R77 names only 0x0000; by R73 there is one more
(notes/assumptions/7.md). -/
def Obligations.ZeroByteFixedPoints : Prop :=
  ∀ c : Half, crcUpdate c 0x00#8 = c ↔ c = 0x0000#16 ∨ c = 0xF01F#16

/-- R74: the fold, that it is incremental, and that CRC.VALUE after any split of a sequence into CRC_BYTE and CRC_HALF commands
is the fold of the sequence. -/
def Obligations.DigestIsIncremental : Prop :=
  (∀ c, crcFold c [] = c) ∧ (∀ c b rest, crcFold c (b :: rest) = crcFold (crcUpdate c b) rest) ∧
  (∀ m, crc16 m = crcFold 0xFFFF#16 m) ∧
  (∀ c x y, crcFold c (x ++ y) = crcFold (crcFold c x) y) ∧
  crc16 [] = 0xFFFF#16 ∧
  crc16 [0x31, 0x32, 0x33, 0x34, 0x35, 0x36, 0x37, 0x38, 0x39] = 0x29B1#16 ∧
  (∀ is m s, fedByAll is = some m → is ≠ [] →
    runCommands is s = .next { s with crc := { s.crc with value := crcFold s.crc.value m },
                                      status := { s.status with err := 0#4 } })

/-- R81: feeding the trailer after the message leaves 0x0000 exactly when it is the message's checksum, so the residue check and
CRC_CHECK agree. -/
def Obligations.ResidueCheckEqualsCrcCheck : Prop :=
  (∀ m, crc16 (m ++ [(crc16 m).extractLsb' 8 8, (crc16 m).extractLsb' 0 8]) = 0x0000#16) ∧
  (∀ m s, s.crc.value = crc16 m →
    (∃ t, exec (.crcHalf (crc16 m)) s = .next t ∧ t.crc.value = 0x0000#16) ∧
    (∃ t, runCommands [.crcByte ((crc16 m).extractLsb' 8 8), .crcByte ((crc16 m).extractLsb' 0 8)] s = .next t ∧
      t.crc.value = 0x0000#16)) ∧
  (∀ (h : Half) s, ∃ t u, exec (.crcHalf h) s = .next t ∧ exec (.crcCheck h) s = .next u ∧
    (t.crc.value = 0x0000#16 ↔ u.status.matched = true)) ∧
  crc16 [0x18, 0x02, 0xC0, 0x34, 0x00, 0x06, 0x2F, 0x11, 0x01, 0x00, 0x00] = 0xEE63#16 ∧
  crc16 [0x18, 0x02, 0xC0, 0x34, 0x00, 0x06, 0x2F, 0x11, 0x01, 0x00, 0x00, 0xEE, 0x63] = 0x0000#16

/-- R82: flipping any one bit of a message of any length changes its checksum, and CRC_CHECK with the original trailer then
raises CHECKSUM_MISMATCH. -/
def Obligations.SingleBitFlipIsDetected : Prop :=
  ∀ (m : List Byte) (k j : Nat), k < m.length → j < 8 →
    crc16 (flipBit m k j) ≠ crc16 m ∧
    ∀ s, s.crc.value = crc16 (flipBit m k j) →
      ∃ t, exec (.crcCheck (crc16 m)) s = .next t ∧ t.status.err = 3#4 ∧ t.status.matched = false

/-- R79: after CRC_INIT, feeding the primary header's bytes, the five frame bytes SH_PACK wrote and the payload's bytes gives
the checksum of the packet in the rule's order, and CRC_CHECK of it reports a match. -/
def Obligations.PacketDigestInWireOrder : Prop :=
  ∀ (s : State) (primary payload : List Byte), s.sh.version = s.params.pusVersion →
    ∃ t, exec .shPack s = .next t ∧
      ∃ u, runCommands (.crcInit ::
          (packetDigestBytes primary
            [(s.sh.version.setWidth 8 <<< 4) ||| (s.sh.ack &&& 0x0F#8), s.sh.service, s.sh.subservice,
             s.sh.sourceId.extractLsb' 8 8, s.sh.sourceId.extractLsb' 0 8] payload).map Instr.crcByte) t = .next u ∧
        u.crc.value = crc16 (packetDigestBytes primary [t.sh.b0, t.sh.b1, t.sh.b2, t.sh.b3, t.sh.b4] payload) ∧
        ∃ v, exec (.crcCheck u.crc.value) u = .next v ∧ v.status.matched = true ∧ v.status.err = 0#4

/-- R133: a digest saved with a read of CRC and restored with a write of CRC goes on exactly, whatever the block did in
between. -/
def Obligations.SavedDigestResumesExactly : Prop :=
  ∀ (s u : State) (x : List Byte) (is : List Instr) (m : List Byte), s.crc.value = crcFold 0xFFFF#16 x →
    fedByAll is = some m → is ≠ [] →
    ∃ t, runCommands is (writeReg .CRC (readReg .CRC s) u) = .next t ∧ t.crc.value = crc16 (x ++ m)

/-! ### Secondary-header commands -/

/-- R86: SH_PACK, with the supported version and with any other. -/
def Obligations.ShPackWritesFrame : Prop :=
  decode 0x00000020#32 = .ok .shPack ∧
  (∀ s, s.sh.version = s.params.pusVersion → exec .shPack s =
    .next { s with
      sh := { s.sh with
        b0 := (s.sh.version.setWidth 8 <<< 4) ||| (s.sh.ack &&& 0x0F#8)
        b1 := s.sh.service
        b2 := s.sh.subservice
        b3 := BitVec.ofNat 8 (s.sh.sourceId.toNat / 256)
        b4 := BitVec.ofNat 8 s.sh.sourceId.toNat }
      status := { s.status with err := 0#4 } }) ∧
  (∀ s, s.sh.version ≠ s.params.pusVersion → exec .shPack s =
    .next { s with status := { s.status with err := 2#4, sticky := true } }) ∧
  (∀ p, p.pusVersion ≠ 0#4 → ∃ t, exec .shPack (State.resetWith p) = .next t ∧ t.status.err = 2#4) ∧
  (∀ p, p.pusVersion = 0#4 → ∃ t, exec .shPack (State.resetWith p) = .next t ∧ t.status.err = 0#4) ∧
  (∀ s, s.params.pusVersion = 2#4 → readReg .SH_FIELDS s = 0x0111020F#32 → readReg .SH_SRCID s = 0x00000000#32 →
    ∃ t, exec .shPack s = .next t ∧ readReg .SH_FRAME0 t = 0x2F110100#32 ∧ readReg .SH_FRAME1 t = 0x00000000#32 ∧
      t.status.err = 0#4)

/-- R88: SH_UNPACK, which never fails. -/
def Obligations.ShUnpackReadsFrame : Prop :=
  decode 0x00000021#32 = .ok .shUnpack ∧
  (∀ s, ∀ v : Nibble, v = BitVec.ofNat 4 (s.sh.b0.toNat / 16) → exec .shUnpack s =
    .next { s with
      sh := { s.sh with
        version := v
        ack := s.sh.b0 &&& 0x0F#8
        service := s.sh.b1
        subservice := s.sh.b2
        sourceId := BitVec.ofNat 16 (s.sh.b3.toNat * 256 + s.sh.b4.toNat) }
      status := { s.status with err := 0#4, verKnown := s.params.known.getLsbD v.toNat } }) ∧
  (∀ s t, exec .shUnpack s = .next t → t.sh.version ≠ t.params.pusVersion →
    ∃ u, exec .shPack t = .next u ∧ u.status.err = 2#4) ∧
  (∀ s t, exec .shUnpack s = .next t → t.sh.ack.extractLsb' 4 4 = 0#4) ∧
  (∀ s, s.params.known = 0x0007#16 → readReg .SH_FRAME0 s = 0xF3050607#32 → readReg .SH_FRAME1 s = 0x08000000#32 →
    ∃ t, exec .shUnpack s = .next t ∧ readReg .SH_FIELDS t = 0x06050F03#32 ∧ readReg .SH_SRCID t = 0x00000708#32 ∧
      t.status.verKnown = false ∧ t.status.err = 0#4)

/-- R89: the pack and unpack functions invert each other, and so do the commands wherever SH_PACK succeeds. -/
def Obligations.PackUnpackRoundTrip : Prop :=
  (∀ f : ShFields, shUnpackFields (shPackBytes f) = { f with ack := f.ack &&& 0x0F#8 }) ∧
  (∀ b : ShBytes, shPackBytes (shUnpackFields b) = b) ∧
  (∀ s, s.params.wellFormed = true → s.sh.version = s.params.pusVersion →
    ∃ t, runCommands [.shPack, .shUnpack] s = .next t ∧ t.sh.version = s.sh.version ∧ t.sh.ack = s.sh.ack &&& 0x0F#8 ∧
      t.sh.service = s.sh.service ∧ t.sh.subservice = s.sh.subservice ∧ t.sh.sourceId = s.sh.sourceId ∧
      t.status.verKnown = true) ∧
  (∀ s, ∃ t, runCommands [.shUnpack, .shPack] s = .next t ∧
    t.sh.b0 = s.sh.b0 ∧ t.sh.b1 = s.sh.b1 ∧ t.sh.b2 = s.sh.b2 ∧ t.sh.b3 = s.sh.b3 ∧ t.sh.b4 = s.sh.b4 ∧
    t.status.err = if s.sh.b0.toNat / 16 = s.params.pusVersion.toNat then 0#4 else 2#4)

/-! ### Timestamp commands -/

/-- R91, R92: the UNIX seconds and nanoseconds of a day count and a millisecond count, their ranges, and that they are the
exact instant, the sub-day part added also before 1970. -/
def Obligations.UnixTimeOfDayCount : Prop :=
  unixSeconds 0#16 1500#32 = -378691199 ∧ unixNanos 1500#32 = 500000000 ∧
  ∀ (d : Half) (m : Word), m.toNat ≤ 86399999 →
    unixSeconds d m * 1000 + ((unixNanos m / 1000000 : Nat) : Int) =
      ((d.toNat : Int) - 4383) * 86400000 + (m.toNat : Int) ∧
    unixSeconds d m = ((d.toNat : Int) - 4383) * 86400 + ((m.toNat / 1000 : Nat) : Int) ∧
    unixNanos m = m.toNat % 1000 * 1000000 ∧
    (-4383 ≤ daysSince1970 d ∧ daysSince1970 d ≤ 61152) ∧
    (-378691200 ≤ unixSeconds d m ∧ unixSeconds d m ≤ 5283619199) ∧
    (unixNanos m ≤ 999000000 ∧ unixNanos m % 1000000 = 0) ∧
    (-(2 ^ 33) ≤ unixSeconds d m ∧ unixSeconds d m < 2 ^ 33) ∧
    (BitVec.ofInt 64 (unixSeconds d m)).toInt = unixSeconds d m

/-- R96: TS_CONVERT, with a millisecond count in range and out of it. -/
def Obligations.TsConvertCommitsOrRefuses : Prop :=
  decode 0x00000030#32 = .ok .tsConvert ∧
  (∀ s, s.tsIn.ms.toNat ≤ 86399999 → exec .tsConvert s =
    .next { s with tsv := committedOf s.params.pfield s.tsIn.day s.tsIn.ms,
                   status := { s.status with err := 0#4, tsValid := true } }) ∧
  (∀ s, 86399999 < s.tsIn.ms.toNat → exec .tsConvert s =
    .next { s with status := { s.status with err := 4#4, sticky := true } }) ∧
  (∀ s, s.params.pfield = 0x40#8 → s.tsIn.day = 4383#16 → s.tsIn.ms = 0#32 →
    ∃ t, exec .tsConvert s = .next t ∧ readReg .UNIX_HI t = 0#32 ∧ readReg .UNIX_LO t = 0#32 ∧ readReg .NANOS t = 0#32 ∧
      readReg .CAL_DATE t = 0x07B20101#32 ∧ readReg .CAL_TIME t = 0#32 ∧ readReg .TSV_PDAY t = 0x4000111F#32)

/-- R90, R91, R93, R94, R97, R98, R35: what TS_CONVERT commits. The UNIX seconds are those of the day and millisecond counts,
the calendar date is the Gregorian date of the day count, counted out day by day, and the time of day is that of the whole
seconds. -/
def Obligations.ConvertedTimestampIsConsistent : Prop :=
  ∀ s, s.tsIn.ms.toNat ≤ 86399999 →
    ∃ t, exec .tsConvert s = .next t ∧ t.tsv.pfield = s.params.pfield ∧ t.tsv.day = s.tsIn.day ∧
      t.tsv.ms = s.tsIn.ms ∧ t.status.tsValid = true ∧ Consistent t.tsv

/-- R95: the source's two epoch examples. -/
def Obligations.EpochExamples : Prop :=
  (∀ s, s.tsIn.day = 0#16 → s.tsIn.ms = 0#32 →
    ∃ t, exec .tsConvert s = .next t ∧ (pair64 t.tsv.secHi t.tsv.secLo).toInt = -378691200 ∧
      t.tsv.ns = 0#32 ∧ t.tsv.year = 1958#16 ∧ t.tsv.month = 1#8 ∧ t.tsv.mday = 1#8 ∧ t.tsv.hour = 0#8 ∧
      t.tsv.minute = 0#8 ∧ t.tsv.second = 0#8) ∧
  (∀ s, s.tsIn.day = 4383#16 → s.tsIn.ms = 0#32 →
    ∃ t, exec .tsConvert s = .next t ∧ (pair64 t.tsv.secHi t.tsv.secLo).toInt = 0 ∧
      t.tsv.ns = 0#32 ∧ t.tsv.year = 1970#16 ∧ t.tsv.month = 1#8 ∧ t.tsv.mday = 1#8 ∧ t.tsv.hour = 0#8 ∧
      t.tsv.minute = 0#8 ∧ t.tsv.second = 0#8)

/-- R103, R101: TS_FROM_UNIX accepts exactly the seconds -378691200 to 5283619199 with at most 999999999 nanoseconds. It then
commits the day and millisecond counts of that time, whose UNIX seconds are the operand itself; otherwise it ends with RANGE
and commits nothing. -/
def Obligations.TsFromUnixCommitsOrRefuses : Prop :=
  decode 0x00000031#32 = .ok .tsFromUnix ∧
  (∀ s, ∀ sec : Int, ∀ ns : Nat, sec = (s.tsIn.secHi ++ s.tsIn.secLo : BitVec 64).toInt → ns = s.tsIn.ns.toNat →
    if ns ≤ 999999999 ∧ -378691200 ≤ sec ∧ sec ≤ 5283619199 then
      ∃ c : Committed,
        exec .tsFromUnix s = .next { s with tsv := c, status := { s.status with err := 0#4, tsValid := true } } ∧
        c.pfield = s.params.pfield ∧ (c.day.toNat : Int) = sec / 86400 + 4383 ∧
        (c.ms.toNat : Int) = sec % 86400 * 1000 + ((ns / 1000000 : Nat) : Int) ∧
        (pair64 c.secHi c.secLo).toInt = sec ∧ c.ns.toNat = ns - ns % 1000000 ∧ Consistent c
    else
      exec .tsFromUnix s = .next { s with status := { s.status with err := 4#4, sticky := true } }) ∧
  (∀ s, s.params.pfield = 0x40#8 → s.tsIn.secHi = 0#32 → s.tsIn.secLo = 0x386DEC40#32 → s.tsIn.ns = 123456789#32 →
    ∃ t, exec .tsFromUnix s = .next t ∧ readReg .TSV_PDAY t = 0x40003BEC#32 ∧ readReg .TSV_MS t = 0x02932E7B#32 ∧
      readReg .NANOS t = 123000000#32 ∧ readReg .CAL_DATE t = 0x07D00101#32 ∧ readReg .CAL_TIME t = 0x000C0000#32)

/-- R108: the two commit commands undo each other, through the registers the host copies. -/
def Obligations.CommitRoundTrip : Prop :=
  (∀ s t, s.tsIn.ms.toNat ≤ 86399999 → exec .tsConvert s = .next t →
    ∃ u, exec .tsFromUnix (writeReg .UNIX_IN_NS (readReg .NANOS t) (writeReg .UNIX_IN_HI (readReg .UNIX_HI t)
          (writeReg .UNIX_IN_LO (readReg .UNIX_LO t) t))) = .next u ∧
      u.status.err = 0#4 ∧ u.tsv.day = s.tsIn.day ∧ u.tsv.ms = s.tsIn.ms ∧ u.tsv = t.tsv) ∧
  (∀ s t, exec .tsFromUnix s = .next t → t.status.err = 0#4 →
    ∃ u, exec .tsConvert (writeReg .TS_MS_IN (readReg .TSV_MS t) (writeReg .TS_DAY_IN (readReg .TSV_PDAY t) t)) = .next u ∧
      u.status.err = 0#4 ∧ u.tsv = t.tsv ∧
      (pair64 u.tsv.secHi u.tsv.secLo).toInt = (pair64 s.tsIn.secHi s.tsIn.secLo).toInt ∧
      u.tsv.ns.toNat = s.tsIn.ns.toNat - s.tsIn.ns.toNat % 1000000)

/-- R106: TS_PACK, under both layouts and before any commit. -/
def Obligations.TsPackWritesFrame : Prop :=
  decode 0x00000032#32 = .ok .tsPack ∧
  (∀ s, s.status.tsValid = false → exec .tsPack s =
    .next { s with status := { s.status with err := 5#4, sticky := true } }) ∧
  (∀ s, s.status.tsValid = true → s.params.tsLayout = .cds7 → exec .tsPack s =
    .next { s with
      tsFrame := { w0 := s.tsv.pfield ++ s.tsv.day ++ s.tsv.ms.extractLsb' 24 8, w1 := s.tsv.ms.extractLsb' 0 24 ++ 0x00#8 }
      status := { s.status with err := 0#4 } }) ∧
  (∀ s, s.status.tsValid = true → s.params.tsLayout = .rsv8 → exec .tsPack s =
    .next { s with
      tsFrame := { w0 := s.tsv.pfield ++ s.tsv.day ++ 0x00#8, w1 := s.tsv.ms }
      status := { s.status with err := 0#4 } }) ∧
  (∀ s t u, exec .tsPack s = .next t → exec .tsPack t = .next u → u.tsFrame = t.tsFrame) ∧
  (∀ s, s.status.tsValid = true → s.tsv.pfield = 0x40#8 → s.tsv.day = 15340#16 → s.tsv.ms = 43200123#32 →
    ∃ t, exec .tsPack s = .next t ∧
      t.tsFrame = match s.params.tsLayout with
        | .cds7 => ⟨0x403BEC02#32, 0x932E7B00#32⟩
        | .rsv8 => ⟨0x403BEC00#32, 0x02932E7B#32⟩)

/-- R105: the reserved byte under RSV8, and the byte of TS_FRAME1 that holds no frame byte under CDS7, are written 0x00. -/
def Obligations.ReservedFrameByteIsZero : Prop :=
  ∀ s t, s.status.tsValid = true → exec .tsPack s = .next t →
    (s.params.tsLayout = .rsv8 → frameByte t.tsFrame.w0 t.tsFrame.w1 3 = 0x00#8) ∧
    (s.params.tsLayout = .cds7 → t.tsFrame.w1.extractLsb' 0 8 = 0x00#8)

/-! ### Rules over all commands and steps -/

/-- R68: which STATUS bits each command, and an illegal word, writes. -/
def Obligations.StatusBitsEachCommandWrites : Prop :=
  ∀ s t : State,
    (∀ i, i = .nop ∨ i = .crcInit ∨ (∃ b, i = .crcByte b) ∨ (∃ h, i = .crcHalf h) → exec i s = .next t →
      t.status = { s.status with err := 0#4 }) ∧
    (exec .statClr s = .next t → t.status = { s.status with err := 0#4, sticky := false }) ∧
    (∀ h, exec (.crcCheck h) s = .next t → ∃ e, (e = 0#4 ∨ e = 3#4) ∧
      t.status = { s.status with err := e, sticky := s.status.sticky || decide (e ≠ 0#4),
                                 matched := decide (h = s.crc.value) }) ∧
    (exec .shPack s = .next t → ∃ e, (e = 0#4 ∨ e = 2#4) ∧
      t.status = { s.status with err := e, sticky := s.status.sticky || decide (e ≠ 0#4) }) ∧
    (exec .shUnpack s = .next t →
      t.status = { s.status with err := 0#4, verKnown := s.params.known.getLsbD (s.sh.b0.toNat / 16) }) ∧
    (∀ i, i = .tsConvert ∨ i = .tsFromUnix → exec i s = .next t → ∃ e, (e = 0#4 ∨ e = 4#4) ∧
      t.status = { s.status with err := e, sticky := s.status.sticky || decide (e ≠ 0#4),
                                 tsValid := s.status.tsValid || decide (e = 0#4) }) ∧
    (exec .tsPack s = .next t → ∃ e, (e = 0#4 ∨ e = 5#4) ∧
      t.status = { s.status with err := e, sticky := s.status.sticky || decide (e ≠ 0#4) }) ∧
    (∀ w x, decode w = .error x → runCommand w s = .next t →
      t.status = { s.status with err := 1#4, sticky := true })

/-- R17 to R21: the five fields of STATUS over a whole step: which step may change each, and to what. Every CMD write writes ERR,
whatever it held. STAT_CLR is the one command that ends with code 0 and changes STICKY (R18, R71). The last sentence of R21
holds in states that satisfy `TimestampInv`, which every step keeps. -/
def Obligations.StatusFieldsFollowTheirRules : Prop :=
  (∀ s w, w = readReg .STATUS s →
    w.extractLsb' 0 4 = s.status.err ∧ w.getLsbD 4 = s.status.sticky ∧ w.getLsbD 5 = s.status.matched ∧
    w.getLsbD 6 = s.status.verKnown ∧ w.getLsbD 7 = s.status.tsValid) ∧
  (∀ p, readReg .STATUS (State.resetWith p) = 0#32) ∧
  (∀ s v, NextWrite s .STATUS v → step s = .next { s with pc := s.pc + 1 }) ∧
  (∀ s t, step s = .next t → t.status.err ≠ s.status.err → NextReset s ∨ ∃ w, NextCommand s w) ∧
  (∀ w s e, runCommand w { s with status := { s.status with err := e } } = runCommand w s) ∧
  (∀ s t w, step s = .next t → NextCommand s w → t.status.err.toNat ≤ 5 ∧
    (t.status.err ≠ 0#4 → t.status.sticky = true) ∧
    (t.status.err = 0#4 → w ≠ 0x00000001#32 → t.status.sticky = s.status.sticky)) ∧
  (∀ s t, step s = .next t → NextCommand s 0x00000000#32 ∨ NextCommand s 0x00000001#32 → t.status.err = 0#4) ∧
  (∀ s t, step s = .next t → s.status.sticky = true → t.status.sticky = false →
    NextReset s ∨ NextCommand s 0x00000001#32) ∧
  (∀ s t, step s = .next t → t.status.matched ≠ s.status.matched →
    NextReset s ∨ ∃ h, NextCommand s (encode (.crcCheck h))) ∧
  (∀ s t h, step s = .next t → NextCommand s (encode (.crcCheck h)) → t.status.matched = decide (h = s.crc.value)) ∧
  (∀ s t, step s = .next t → t.status.verKnown ≠ s.status.verKnown → NextReset s ∨ NextCommand s 0x00000021#32) ∧
  (∀ s t, step s = .next t → NextCommand s 0x00000021#32 →
    t.status.verKnown = s.params.known.getLsbD t.sh.version.toNat) ∧
  (∀ s t, step s = .next t → s.status.tsValid = true → t.status.tsValid = false → NextReset s) ∧
  (∀ s t, step s = .next t → NextCommand s 0x00000030#32 ∨ NextCommand s 0x00000031#32 → t.status.err = 0#4 →
    t.status.tsValid = true) ∧
  (∀ s t, step s = .next t → s.status.tsValid = false → t.status.tsValid = true →
    NextCommand s 0x00000030#32 ∨ NextCommand s 0x00000031#32) ∧
  (∀ s, TimestampInv s → s.status.tsValid = false → s.tsv = noTimestamp)

/-- R131, R90, R23, R37: result registers change only when their own command runs, when the host writes them where it may, or on
a reset. -/
def Obligations.ResultRegistersChangeOnlyByTheirCommand : Prop :=
  (∀ s t, step s = .next t → t.tsv ≠ s.tsv →
    NextReset s ∨ NextCommand s 0x00000030#32 ∨ NextCommand s 0x00000031#32) ∧
  (∀ s t, step s = .next t → t.tsv ≠ s.tsv → ¬ NextReset s → t.status.err = 0#4) ∧
  (∀ s t, step s = .next t → t.tsFrame ≠ s.tsFrame → NextReset s ∨ NextCommand s 0x00000032#32) ∧
  (∀ s t, step s = .next t → t.crc.expected ≠ s.crc.expected ∨ t.crc.found ≠ s.crc.found →
    NextReset s ∨ ∃ h, NextCommand s (encode (.crcCheck h))) ∧
  (∀ s t, step s = .next t → readReg .SH_FRAME0 t ≠ readReg .SH_FRAME0 s →
    NextReset s ∨ NextCommand s 0x00000020#32 ∨ ∃ v, NextWrite s .SH_FRAME0 v) ∧
  (∀ s t, step s = .next t → readReg .SH_FRAME1 t ≠ readReg .SH_FRAME1 s →
    NextReset s ∨ NextCommand s 0x00000020#32 ∨ ∃ v, NextWrite s .SH_FRAME1 v) ∧
  (∀ s t, step s = .next t → t.tsIn ≠ s.tsIn →
    NextReset s ∨ ∃ r v, r ∈ [RegName.TS_DAY_IN, .TS_MS_IN, .UNIX_IN_LO, .UNIX_IN_HI, .UNIX_IN_NS] ∧ NextWrite s r v) ∧
  (∀ s t, step s = .next t → t.crc.value ≠ s.crc.value →
    NextReset s ∨ (∃ v, NextWrite s .CRC v) ∨ NextCommand s 0x00000010#32 ∨ (∃ b, NextCommand s (encode (.crcByte b))) ∨
      ∃ h, NextCommand s (encode (.crcHalf h)))

/-- R112: a command that ends with an error writes nothing but ERR and STICKY, and for CHECKSUM_MISMATCH also CHK_INFO and
MATCH. -/
def Obligations.ErrorsWriteNothingElse : Prop :=
  ∀ w s t, runCommand w s = .next t → t.status.err ≠ 0#4 →
    (t.status.err ≠ 3#4 → t = { s with status := { s.status with err := t.status.err, sticky := true } }) ∧
    (t.status.err = 3#4 → ∃ h, w = encode (.crcCheck h) ∧
      t = { s with crc := { s.crc with expected := h, found := s.crc.value },
                   status := { s.status with err := 3#4, sticky := true, matched := false } })

/-- R127: operands at their reset values give a defined result. -/
def Obligations.CommandsStraightAfterReset : Prop :=
  (∀ p, p.pusVersion ≠ 0#4 → exec .shPack (State.resetWith p) =
    .next { State.resetWith p with status := ⟨2#4, true, false, false, false⟩ }) ∧
  (∀ p, p.pusVersion = 0#4 → ∃ t, exec .shPack (State.resetWith p) = .next t ∧ t.status.err = 0#4) ∧
  (∀ p, exec .tsPack (State.resetWith p) =
    .next { State.resetWith p with status := ⟨5#4, true, false, false, false⟩ }) ∧
  (∀ p m, ∃ t, runCommands (m.map Instr.crcByte) (State.resetWith p) = .next t ∧ t.crc.value = crc16 m)

/-- The block's invariant (R109, R18, R21, R33, R37, R90, R105): every step keeps it, from every state. -/
def Obligations.StepKeepsBlockInvariant : Prop :=
  ∀ s t, BlockInv s → step s = .next t → BlockInv t

/-- The block's invariant holds after reset, for every value of the parameters. -/
def Obligations.ResetSatisfiesBlockInvariant : Prop :=
  ∀ p, BlockInv (State.resetWith p)
end

