-- ==== Sys2Proof/Laws/Decode.lean ====
section
/-! SUPPORT. The fields of a command word and the word of its fields (spec/30_encoding.md R56), bit by bit. -/

namespace Sys2Proof.Laws

open Sys2Proof

/-- Bit `k` of a word made of its fields. -/
theorem wordOf_getLsbD (h : Half) (b op : Byte) (k : Nat) :
    (wordOf h b op).getLsbD k =
      if k < 8 then op.getLsbD k else if k < 16 then b.getLsbD (k - 8) else h.getLsbD (k - 16) := by
  rw [wordOf, BitVec.getLsbD_append, BitVec.getLsbD_append]
  split
  · rfl
  · have e : (k - 8 < 8) ↔ k < 16 := by omega
    have e' : k - 8 - 8 = k - 16 := by omega
    simp only [e, e']

/-- Bit `k` of OP is bit `k` of the word. -/
theorem opField_getLsbD (w : Word) (k : Nat) : (opField w).getLsbD k = (decide (k < 8) && w.getLsbD k) := by
  simp [opField, BitVec.getLsbD_extractLsb']

/-- Bit `k` of B is bit `8 + k` of the word. -/
theorem bField_getLsbD (w : Word) (k : Nat) : (bField w).getLsbD k = (decide (k < 8) && w.getLsbD (8 + k)) := by
  simp [bField, BitVec.getLsbD_extractLsb']

/-- Bit `k` of H is bit `16 + k` of the word. -/
theorem hField_getLsbD (w : Word) (k : Nat) : (hField w).getLsbD k = (decide (k < 16) && w.getLsbD (16 + k)) := by
  simp [hField, BitVec.getLsbD_extractLsb']

theorem opField_wordOf (h : Half) (b op : Byte) : opField (wordOf h b op) = op := by
  refine BitVec.eq_of_getLsbD_eq fun k hk => ?_
  rw [opField_getLsbD, wordOf_getLsbD]
  simp [hk]

theorem bField_wordOf (h : Half) (b op : Byte) : bField (wordOf h b op) = b := by
  refine BitVec.eq_of_getLsbD_eq fun k hk => ?_
  have h1 : ¬ 8 + k < 8 := by omega
  have h2 : 8 + k < 16 := by omega
  rw [bField_getLsbD, wordOf_getLsbD, if_neg h1, if_pos h2, Nat.add_sub_cancel_left]
  simp [hk]

theorem hField_wordOf (h : Half) (b op : Byte) : hField (wordOf h b op) = h := by
  refine BitVec.eq_of_getLsbD_eq fun k hk => ?_
  have h1 : ¬ 16 + k < 8 := by omega
  have h2 : ¬ 16 + k < 16 := by omega
  rw [hField_getLsbD, wordOf_getLsbD, if_neg h1, if_neg h2, Nat.add_sub_cancel_left]
  simp [hk]

/-- A word is the word of its fields. -/
theorem wordOf_fields (w : Word) : wordOf (hField w) (bField w) (opField w) = w := by
  refine BitVec.eq_of_getLsbD_eq fun k hk => ?_
  rw [wordOf_getLsbD, opField_getLsbD, bField_getLsbD, hField_getLsbD]
  by_cases h1 : k < 8
  · simp [h1]
  · by_cases h2 : k < 16
    · have e : 8 + (k - 8) = k := by omega
      have h3 : k - 8 < 8 := by omega
      simp [h1, h2, e, h3]
    · have e : 16 + (k - 16) = k := by omega
      have h3 : k - 16 < 16 := by omega
      simp [h1, h2, e, h3]

end Sys2Proof.Laws
end

