-- ==== Sys2Proof/Laws/State.lean ====
section
/-! SUPPORT. What each named update of the state leaves in each field: one lemma per field per update, true by
definition, so that no later proof unfolds a record update. -/

namespace Sys2Proof.Laws

open Sys2Proof Sys2Proof.Machine

variable (s : State)

/-! ### setResult -/

@[simp] theorem setResult_params (code : ResultCode) : (setResult code s).params = s.params := rfl
@[simp] theorem setResult_status (code : ResultCode) :
    (setResult code s).status =
      { s.status with err := resultBits code, sticky := stickyAfter code s.status.sticky } := rfl
@[simp] theorem setResult_crc (code : ResultCode) : (setResult code s).crc = s.crc := rfl
@[simp] theorem setResult_sh (code : ResultCode) : (setResult code s).sh = s.sh := rfl
@[simp] theorem setResult_tsIn (code : ResultCode) : (setResult code s).tsIn = s.tsIn := rfl
@[simp] theorem setResult_tsv (code : ResultCode) : (setResult code s).tsv = s.tsv := rfl
@[simp] theorem setResult_tsFrame (code : ResultCode) : (setResult code s).tsFrame = s.tsFrame := rfl
@[simp] theorem setResult_program (code : ResultCode) : (setResult code s).program = s.program := rfl
@[simp] theorem setResult_pc (code : ResultCode) : (setResult code s).pc = s.pc := rfl
@[simp] theorem setResult_reads (code : ResultCode) : (setResult code s).reads = s.reads := rfl

/-! ### keepMismatchData -/

@[simp] theorem keepMismatchData_params (t : State) : (keepMismatchData t s).params = s.params := rfl
@[simp] theorem keepMismatchData_status (t : State) :
    (keepMismatchData t s).status =
      { s.status with matched := t.status.matched } := rfl
@[simp] theorem keepMismatchData_crc (t : State) :
    (keepMismatchData t s).crc =
      { s.crc with expected := t.crc.expected, found := t.crc.found } := rfl
@[simp] theorem keepMismatchData_sh (t : State) : (keepMismatchData t s).sh = s.sh := rfl
@[simp] theorem keepMismatchData_tsIn (t : State) : (keepMismatchData t s).tsIn = s.tsIn := rfl
@[simp] theorem keepMismatchData_tsv (t : State) : (keepMismatchData t s).tsv = s.tsv := rfl
@[simp] theorem keepMismatchData_tsFrame (t : State) : (keepMismatchData t s).tsFrame = s.tsFrame := rfl
@[simp] theorem keepMismatchData_program (t : State) : (keepMismatchData t s).program = s.program := rfl
@[simp] theorem keepMismatchData_pc (t : State) : (keepMismatchData t s).pc = s.pc := rfl
@[simp] theorem keepMismatchData_reads (t : State) : (keepMismatchData t s).reads = s.reads := rfl

/-! ### clearSticky -/

@[simp] theorem clearSticky_params : (clearSticky s).params = s.params := rfl
@[simp] theorem clearSticky_status : (clearSticky s).status = { s.status with sticky := false } := rfl
@[simp] theorem clearSticky_crc : (clearSticky s).crc = s.crc := rfl
@[simp] theorem clearSticky_sh : (clearSticky s).sh = s.sh := rfl
@[simp] theorem clearSticky_tsIn : (clearSticky s).tsIn = s.tsIn := rfl
@[simp] theorem clearSticky_tsv : (clearSticky s).tsv = s.tsv := rfl
@[simp] theorem clearSticky_tsFrame : (clearSticky s).tsFrame = s.tsFrame := rfl
@[simp] theorem clearSticky_program : (clearSticky s).program = s.program := rfl
@[simp] theorem clearSticky_pc : (clearSticky s).pc = s.pc := rfl
@[simp] theorem clearSticky_reads : (clearSticky s).reads = s.reads := rfl

/-! ### storeCrc -/

@[simp] theorem storeCrc_params (v : Half) : (storeCrc v s).params = s.params := rfl
@[simp] theorem storeCrc_status (v : Half) : (storeCrc v s).status = s.status := rfl
@[simp] theorem storeCrc_crc (v : Half) : (storeCrc v s).crc = { s.crc with value := v } := rfl
@[simp] theorem storeCrc_sh (v : Half) : (storeCrc v s).sh = s.sh := rfl
@[simp] theorem storeCrc_tsIn (v : Half) : (storeCrc v s).tsIn = s.tsIn := rfl
@[simp] theorem storeCrc_tsv (v : Half) : (storeCrc v s).tsv = s.tsv := rfl
@[simp] theorem storeCrc_tsFrame (v : Half) : (storeCrc v s).tsFrame = s.tsFrame := rfl
@[simp] theorem storeCrc_program (v : Half) : (storeCrc v s).program = s.program := rfl
@[simp] theorem storeCrc_pc (v : Half) : (storeCrc v s).pc = s.pc := rfl
@[simp] theorem storeCrc_reads (v : Half) : (storeCrc v s).reads = s.reads := rfl

/-! ### storeCheck -/

@[simp] theorem storeCheck_params (x f : Half) : (storeCheck x f s).params = s.params := rfl
@[simp] theorem storeCheck_status (x f : Half) :
    (storeCheck x f s).status =
      { s.status with matched := matchFlag x f } := rfl
@[simp] theorem storeCheck_crc (x f : Half) : (storeCheck x f s).crc = { s.crc with expected := x, found := f } := rfl
@[simp] theorem storeCheck_sh (x f : Half) : (storeCheck x f s).sh = s.sh := rfl
@[simp] theorem storeCheck_tsIn (x f : Half) : (storeCheck x f s).tsIn = s.tsIn := rfl
@[simp] theorem storeCheck_tsv (x f : Half) : (storeCheck x f s).tsv = s.tsv := rfl
@[simp] theorem storeCheck_tsFrame (x f : Half) : (storeCheck x f s).tsFrame = s.tsFrame := rfl
@[simp] theorem storeCheck_program (x f : Half) : (storeCheck x f s).program = s.program := rfl
@[simp] theorem storeCheck_pc (x f : Half) : (storeCheck x f s).pc = s.pc := rfl
@[simp] theorem storeCheck_reads (x f : Half) : (storeCheck x f s).reads = s.reads := rfl

/-! ### storeShBytes -/

@[simp] theorem storeShBytes_params (b : ShBytes) : (storeShBytes b s).params = s.params := rfl
@[simp] theorem storeShBytes_status (b : ShBytes) : (storeShBytes b s).status = s.status := rfl
@[simp] theorem storeShBytes_crc (b : ShBytes) : (storeShBytes b s).crc = s.crc := rfl
@[simp] theorem storeShBytes_sh (b : ShBytes) :
    (storeShBytes b s).sh =
      { s.sh with b0 := b.b0, b1 := b.b1, b2 := b.b2, b3 := b.b3, b4 := b.b4 } := rfl
@[simp] theorem storeShBytes_tsIn (b : ShBytes) : (storeShBytes b s).tsIn = s.tsIn := rfl
@[simp] theorem storeShBytes_tsv (b : ShBytes) : (storeShBytes b s).tsv = s.tsv := rfl
@[simp] theorem storeShBytes_tsFrame (b : ShBytes) : (storeShBytes b s).tsFrame = s.tsFrame := rfl
@[simp] theorem storeShBytes_program (b : ShBytes) : (storeShBytes b s).program = s.program := rfl
@[simp] theorem storeShBytes_pc (b : ShBytes) : (storeShBytes b s).pc = s.pc := rfl
@[simp] theorem storeShBytes_reads (b : ShBytes) : (storeShBytes b s).reads = s.reads := rfl

/-! ### storeShFields -/

@[simp] theorem storeShFields_params (f : ShFields) : (storeShFields f s).params = s.params := rfl
@[simp] theorem storeShFields_status (f : ShFields) :
    (storeShFields f s).status =
      { s.status with verKnown := verKnownFlag s.params f.version } := rfl
@[simp] theorem storeShFields_crc (f : ShFields) : (storeShFields f s).crc = s.crc := rfl
@[simp] theorem storeShFields_sh (f : ShFields) :
    (storeShFields f s).sh =
      { s.sh with version := f.version, ack := f.ack, service := f.service, subservice := f.subservice, sourceId := f.sourceId } := rfl
@[simp] theorem storeShFields_tsIn (f : ShFields) : (storeShFields f s).tsIn = s.tsIn := rfl
@[simp] theorem storeShFields_tsv (f : ShFields) : (storeShFields f s).tsv = s.tsv := rfl
@[simp] theorem storeShFields_tsFrame (f : ShFields) : (storeShFields f s).tsFrame = s.tsFrame := rfl
@[simp] theorem storeShFields_program (f : ShFields) : (storeShFields f s).program = s.program := rfl
@[simp] theorem storeShFields_pc (f : ShFields) : (storeShFields f s).pc = s.pc := rfl
@[simp] theorem storeShFields_reads (f : ShFields) : (storeShFields f s).reads = s.reads := rfl

/-! ### commitTimestamp -/

@[simp] theorem commitTimestamp_params (d : Half) (m : Word) : (commitTimestamp d m s).params = s.params := rfl
@[simp] theorem commitTimestamp_status (d : Half) (m : Word) :
    (commitTimestamp d m s).status =
      { s.status with tsValid := true } := rfl
@[simp] theorem commitTimestamp_crc (d : Half) (m : Word) : (commitTimestamp d m s).crc = s.crc := rfl
@[simp] theorem commitTimestamp_sh (d : Half) (m : Word) : (commitTimestamp d m s).sh = s.sh := rfl
@[simp] theorem commitTimestamp_tsIn (d : Half) (m : Word) : (commitTimestamp d m s).tsIn = s.tsIn := rfl
@[simp] theorem commitTimestamp_tsv (d : Half) (m : Word) :
    (commitTimestamp d m s).tsv =
      committedOf s.params.pfield d m := rfl
@[simp] theorem commitTimestamp_tsFrame (d : Half) (m : Word) : (commitTimestamp d m s).tsFrame = s.tsFrame := rfl
@[simp] theorem commitTimestamp_program (d : Half) (m : Word) : (commitTimestamp d m s).program = s.program := rfl
@[simp] theorem commitTimestamp_pc (d : Half) (m : Word) : (commitTimestamp d m s).pc = s.pc := rfl
@[simp] theorem commitTimestamp_reads (d : Half) (m : Word) : (commitTimestamp d m s).reads = s.reads := rfl

/-! ### storeTsFrame -/

@[simp] theorem storeTsFrame_params (f : TsFrame) : (storeTsFrame f s).params = s.params := rfl
@[simp] theorem storeTsFrame_status (f : TsFrame) : (storeTsFrame f s).status = s.status := rfl
@[simp] theorem storeTsFrame_crc (f : TsFrame) : (storeTsFrame f s).crc = s.crc := rfl
@[simp] theorem storeTsFrame_sh (f : TsFrame) : (storeTsFrame f s).sh = s.sh := rfl
@[simp] theorem storeTsFrame_tsIn (f : TsFrame) : (storeTsFrame f s).tsIn = s.tsIn := rfl
@[simp] theorem storeTsFrame_tsv (f : TsFrame) : (storeTsFrame f s).tsv = s.tsv := rfl
@[simp] theorem storeTsFrame_tsFrame (f : TsFrame) : (storeTsFrame f s).tsFrame = f := rfl
@[simp] theorem storeTsFrame_program (f : TsFrame) : (storeTsFrame f s).program = s.program := rfl
@[simp] theorem storeTsFrame_pc (f : TsFrame) : (storeTsFrame f s).pc = s.pc := rfl
@[simp] theorem storeTsFrame_reads (f : TsFrame) : (storeTsFrame f s).reads = s.reads := rfl

/-! ### platformReset -/

@[simp] theorem platformReset_params : (platformReset s).params = s.params := rfl
@[simp] theorem platformReset_status : (platformReset s).status = ⟨0, false, false, false, false⟩ := rfl
@[simp] theorem platformReset_crc : (platformReset s).crc = ⟨0xFFFF, 0, 0⟩ := rfl
@[simp] theorem platformReset_sh : (platformReset s).sh = ⟨0, 0, 0, 0, 0, 0, 0, 0, 0, 0⟩ := rfl
@[simp] theorem platformReset_tsIn : (platformReset s).tsIn = ⟨0, 0, 0, 0, 0⟩ := rfl
@[simp] theorem platformReset_tsv : (platformReset s).tsv = ⟨0, 0, 0, 0, 0, 0, 0, 0, 0, 0, 0, 0⟩ := rfl
@[simp] theorem platformReset_tsFrame : (platformReset s).tsFrame = ⟨0, 0⟩ := rfl
@[simp] theorem platformReset_program : (platformReset s).program = s.program := rfl
@[simp] theorem platformReset_pc : (platformReset s).pc = s.pc := rfl
@[simp] theorem platformReset_reads : (platformReset s).reads = s.reads := rfl

/-! ### advance -/

@[simp] theorem advance_params : (advance s).params = s.params := rfl
@[simp] theorem advance_status : (advance s).status = s.status := rfl
@[simp] theorem advance_crc : (advance s).crc = s.crc := rfl
@[simp] theorem advance_sh : (advance s).sh = s.sh := rfl
@[simp] theorem advance_tsIn : (advance s).tsIn = s.tsIn := rfl
@[simp] theorem advance_tsv : (advance s).tsv = s.tsv := rfl
@[simp] theorem advance_tsFrame : (advance s).tsFrame = s.tsFrame := rfl
@[simp] theorem advance_program : (advance s).program = s.program := rfl
@[simp] theorem advance_pc : (advance s).pc = s.pc + 1 := rfl
@[simp] theorem advance_reads : (advance s).reads = s.reads := rfl

/-! ### recordRead -/

@[simp] theorem recordRead_params (v : Word) : (recordRead v s).params = s.params := rfl
@[simp] theorem recordRead_status (v : Word) : (recordRead v s).status = s.status := rfl
@[simp] theorem recordRead_crc (v : Word) : (recordRead v s).crc = s.crc := rfl
@[simp] theorem recordRead_sh (v : Word) : (recordRead v s).sh = s.sh := rfl
@[simp] theorem recordRead_tsIn (v : Word) : (recordRead v s).tsIn = s.tsIn := rfl
@[simp] theorem recordRead_tsv (v : Word) : (recordRead v s).tsv = s.tsv := rfl
@[simp] theorem recordRead_tsFrame (v : Word) : (recordRead v s).tsFrame = s.tsFrame := rfl
@[simp] theorem recordRead_program (v : Word) : (recordRead v s).program = s.program := rfl
@[simp] theorem recordRead_pc (v : Word) : (recordRead v s).pc = s.pc := rfl
@[simp] theorem recordRead_reads (v : Word) : (recordRead v s).reads = v :: s.reads := rfl

/-! ### writeReg: a register write reaches only the CRC value, the header unit and the operand registers -/

@[simp] theorem writeReg_params (r : RegName) (v : Word) : (writeReg r v s).params = s.params := by cases r <;> rfl
@[simp] theorem writeReg_status (r : RegName) (v : Word) : (writeReg r v s).status = s.status := by cases r <;> rfl
@[simp] theorem writeReg_tsv (r : RegName) (v : Word) : (writeReg r v s).tsv = s.tsv := by cases r <;> rfl
@[simp] theorem writeReg_tsFrame (r : RegName) (v : Word) : (writeReg r v s).tsFrame = s.tsFrame := by cases r <;> rfl
@[simp] theorem writeReg_program (r : RegName) (v : Word) : (writeReg r v s).program = s.program := by cases r <;> rfl
@[simp] theorem writeReg_pc (r : RegName) (v : Word) : (writeReg r v s).pc = s.pc := by cases r <;> rfl
@[simp] theorem writeReg_reads (r : RegName) (v : Word) : (writeReg r v s).reads = s.reads := by cases r <;> rfl

/-! ### resetWith -/

@[simp] theorem resetWith_params (p : Params) : (State.resetWith p).params = p := rfl
@[simp] theorem resetWith_crc (p : Params) : (State.resetWith p).crc = ⟨0xFFFF, 0, 0⟩ := rfl
@[simp] theorem resetWith_status (p : Params) : (State.resetWith p).status = ⟨0, false, false, false, false⟩ := rfl
@[simp] theorem resetWith_tsv (p : Params) : (State.resetWith p).tsv = ⟨0, 0, 0, 0, 0, 0, 0, 0, 0, 0, 0, 0⟩ := rfl
@[simp] theorem resetWith_tsFrame (p : Params) : (State.resetWith p).tsFrame = ⟨0, 0⟩ := rfl

end Sys2Proof.Laws
end

