-- ==== Sys2Proof/Laws/Ops.lean ====
section
/-! SUPPORT. For each shared operation, once, everything it can do: completion (spec/60_exceptions.md R112), selection of a
register by a transaction (spec/20_memory.md R42), register reads and writes, the host's bookkeeping, and placing a move. -/

namespace Sys2Proof.Laws

open Sys2Proof Sys2Proof.Machine

/-! ### Completion -/

@[simp] theorem stickyAfter_ok (b : Bool) : stickyAfter .ok b = b := rfl

/-- A code other than OK sets STICKY (R112). -/
theorem stickyAfter_error {code : ResultCode} (h : code ≠ .ok) (b : Bool) : stickyAfter code b = true := by
  simp [stickyAfter, h]

/-- STICKY after a command is the old STICKY or an error (R68, R112). -/
theorem stickyAfter_eq (code : ResultCode) (b : Bool) : stickyAfter code b = (b || decide (code ≠ .ok)) := by
  cases code <;> simp [stickyAfter]

/-- ERR holds no reserved code (R109). -/
theorem resultBits_le (code : ResultCode) : (resultBits code).toNat ≤ 5 := by cases code <;> decide

/-- ERR is 0 exactly on OK (R109). -/
theorem resultBits_eq_zero_iff (code : ResultCode) : resultBits code = 0 ↔ code = .ok := by cases code <;> decide

/-- Different result codes have different numbers (R109). -/
theorem resultBits_injective {a b : ResultCode} (h : resultBits a = resultBits b) : a = b := by
  cases a <;> cases b <;> first | rfl | (exact absurd h (by decide))

/-- Everything `finish` can do (R112): it answers a next state, which is the rule's writes with ERR 0 on OK, the mismatch data
on CHECKSUM_MISMATCH, and the old state on any other code, with the code recorded. -/
theorem finish_cases {code : ResultCode} {w : State → State} {s t : State} (h : finish code w s = .next t) :
    (code = .ok ∧ t = setResult .ok (w s)) ∨
    (code = .checksumMismatch ∧ t = setResult .checksumMismatch (keepMismatchData (w s) s)) ∨
    (code ≠ .ok ∧ code ≠ .checksumMismatch ∧ t = setResult code s) := by
  cases code <;> simp_all [finish, complete]

@[simp] theorem finish_ok (w : State → State) (s : State) : finish .ok w s = .next (setResult .ok (w s)) := rfl

@[simp] theorem finish_mismatch (w : State → State) (s : State) :
    finish .checksumMismatch w s = .next (setResult .checksumMismatch (keepMismatchData (w s) s)) := rfl

/-- A code that keeps no data commits no write of the rule (R112). -/
theorem finish_error {code : ResultCode} (h₁ : code ≠ .ok) (h₂ : code ≠ .checksumMismatch) (w : State → State) (s : State) :
    finish code w s = .next (setResult code s) := by
  cases code <;> simp_all [finish, complete]

/-- `finish` always answers a next state (spec/60_exceptions.md R124). -/
theorem finish_next (code : ResultCode) (w : State → State) (s : State) : ∃ t, finish code w s = .next t := ⟨_, rfl⟩

@[simp] theorem complete_ok (w : State → State) (s : State) : complete .ok w s = setResult .ok (w s) := rfl
@[simp] theorem complete_mismatch (w : State → State) (s : State) :
    complete .checksumMismatch w s = setResult .checksumMismatch (keepMismatchData (w s) s) := rfl
@[simp] theorem complete_illegalCmd (w : State → State) (s : State) : complete .illegalCmd w s = setResult .illegalCmd s := rfl
@[simp] theorem complete_unsupportedVersion (w : State → State) (s : State) :
    complete .unsupportedVersion w s = setResult .unsupportedVersion s := rfl
@[simp] theorem complete_range (w : State → State) (s : State) : complete .range w s = setResult .range s := rfl
@[simp] theorem complete_noValue (w : State → State) (s : State) : complete .noValue w s = setResult .noValue s := rfl

/-- What `finish` keeps, whatever the code, if the rule's writes keep it. -/
theorem finish_keeps {α : Type} (g : State → α) {code : ResultCode} {w : State → State} {s t : State}
    (h : finish code w s = .next t) (hr : ∀ c u, g (setResult c u) = g u)
    (hk : ∀ u v, g (keepMismatchData u v) = g v) (hw : g (w s) = g s) : g t = g s := by
  rcases finish_cases h with ⟨-, rfl⟩ | ⟨-, rfl⟩ | ⟨-, -, rfl⟩
  · rw [hr, hw]
  · rw [hr, hk]
  · rw [hr]

/-! ### The register map -/

/-- The register at a register's own offset. -/
@[simp] theorem regAt_regOffset (r : RegName) : regAt (regOffset r) = some r := by cases r <;> rfl

/-- Offsets name registers without overlap. -/
theorem regAt_eq_some_iff {off : Nat} {r : RegName} : regAt off = some r ↔ off = regOffset r := by
  constructor
  · intro h
    unfold regAt at h
    split at h <;> first | (cases h; rfl) | exact absurd h (by simp)
  · rintro rfl
    exact regAt_regOffset r

/-- A register's offset is a multiple of 4 and at most 0x58. -/
theorem regOffset_range (r : RegName) : regOffset r % 4 = 0 ∧ regOffset r ≤ 0x58 := by cases r <;> decide

/-- An offset names a register exactly when it is a multiple of 4 and at most 0x58 (R42). -/
theorem regAt_isSome_iff (off : Nat) : (∃ r, regAt off = some r) ↔ off % 4 = 0 ∧ off ≤ 0x58 := by
  constructor
  · rintro ⟨r, h⟩
    rw [regAt_eq_some_iff.mp h]
    exact regOffset_range r
  · rintro ⟨h4, hle⟩
    have key : ∀ k ≤ 22, ∃ r, regAt (4 * k) = some r := by
      intro k hk
      interval_cases k <;> exact ⟨_, rfl⟩
    obtain ⟨k, rfl⟩ : ∃ k, off = 4 * k := ⟨off / 4, by omega⟩
    exact key k (by omega)

/-- A transaction reaches the register `r` exactly when its size is 4 and its address is the base plus `r`'s offset. -/
theorem selectReg_eq_ok_iff {p : Params} {addr size : Nat} {r : RegName} :
    selectReg p addr size = .ok r ↔ size = 4 ∧ addr = p.base + regOffset r := by
  have hr := (regOffset_range r).2
  unfold selectReg
  constructor
  · intro h
    split at h
    · cases h
    split at h
    · cases h
    split at h
    case isFalse => cases h
    case isTrue h1 h2 h3 =>
      split at h
      · rename_i r' hr'
        cases h
        have := regAt_eq_some_iff.mp hr'
        exact ⟨h3, by omega⟩
      · cases h
  · rintro ⟨rfl, rfl⟩
    have h1 : ¬ p.base + regOffset r < p.base := by omega
    have h2 : ¬ p.base + 256 ≤ p.base + regOffset r := by omega
    simp [h1, h2]

/-- The transaction at a register's own address. -/
@[simp] theorem selectReg_regOffset (p : Params) (r : RegName) : selectReg p (p.base + regOffset r) 4 = .ok r :=
  selectReg_eq_ok_iff.mpr ⟨rfl, rfl⟩

/-- The transaction at the window's base reaches CMD. -/
@[simp] theorem selectReg_base (p : Params) : selectReg p p.base 4 = .ok .CMD :=
  selectReg_eq_ok_iff.mpr ⟨rfl, rfl⟩

/-- Everything `selectReg` can do: a register, a bus error inside the window (R42), or no register of this block. -/
theorem selectReg_cases (p : Params) (addr size : Nat) :
    (∃ r, selectReg p addr size = .ok r ∧ size = 4 ∧ addr = p.base + regOffset r) ∨
    (selectReg p addr size = .error .busError ∧ p.base ≤ addr ∧ addr < p.base + 256 ∧
      ¬ ((addr - p.base) % 4 = 0 ∧ addr - p.base ≤ 0x58 ∧ size = 4)) ∨
    (selectReg p addr size = .error .outsideWindow ∧ (addr < p.base ∨ p.base + 256 ≤ addr)) := by
  by_cases h1 : addr < p.base
  · exact .inr (.inr ⟨by simp [selectReg, h1], .inl h1⟩)
  by_cases h2 : p.base + 256 ≤ addr
  · exact .inr (.inr ⟨by simp [selectReg, h1, h2], .inr h2⟩)
  by_cases h3 : size = 4
  · by_cases h4 : ∃ r, regAt (addr - p.base) = some r
    · obtain ⟨r, hr⟩ := h4
      refine .inl ⟨r, by simp [selectReg, h1, h2, h3, hr], h3, ?_⟩
      have := regAt_eq_some_iff.mp hr
      omega
    · have hn : regAt (addr - p.base) = none := by
        cases h : regAt (addr - p.base) with
        | none => rfl
        | some r => exact absurd ⟨r, h⟩ h4
      refine .inr (.inl ⟨by simp [selectReg, h1, h2, h3, hn], by omega, by omega, ?_⟩)
      rintro ⟨ha, hb, -⟩
      exact h4 ((regAt_isSome_iff _).mpr ⟨ha, hb⟩)
  · exact .inr (.inl ⟨by simp [selectReg, h1, h2, h3], by omega, by omega, fun h => h3 h.2.2⟩)

/-! ### Register writes -/

/-- A write to a register that is not RW leaves the state as it is (R46). -/
theorem writeReg_of_not_rw {r : RegName} (h : regAccess r ≠ .RW) (v : Word) (s : State) : writeReg r v s = s := by
  cases r <;> first | rfl | exact absurd rfl h

/-- A register write keeps the CHK_INFO fields. -/
@[simp] theorem writeReg_crc_expected (r : RegName) (v : Word) (s : State) :
    (writeReg r v s).crc.expected = s.crc.expected := by cases r <;> rfl

@[simp] theorem writeReg_crc_found (r : RegName) (v : Word) (s : State) :
    (writeReg r v s).crc.found = s.crc.found := by cases r <;> rfl

/-! ### The host's program -/

/-- The move placed at an index stands there. -/
@[simp] theorem placeMove_get (filler m : HostMove) (l : List HostMove) (k : Nat) :
    (placeMove filler m l k)[k]? = some m := by
  induction k generalizing l with
  | zero => cases l <;> rfl
  | succ k ih => cases l <;> simpa [placeMove] using ih _

/-- Placing a move leaves every other move of the program where it stood. -/
theorem placeMove_get_ne (filler m : HostMove) (l : List HostMove) {k j : Nat} (hj : j < l.length) (hne : j ≠ k) :
    (placeMove filler m l k)[j]? = l[j]? := by
  induction k generalizing l j with
  | zero =>
    cases l with
    | nil => simp at hj
    | cons x rest =>
      cases j with
      | zero => exact absurd rfl hne
      | succ j => simp [placeMove]
  | succ k ih =>
    cases l with
    | nil => simp at hj
    | cons x rest =>
      cases j with
      | zero => simp [placeMove]
      | succ j =>
        have := ih rest (j := j) (by simpa using hj) (by omega)
        simpa [placeMove] using this

end Sys2Proof.Laws
end

