-- ==== Sys2Proof/Laws/PerInstr.lean ====
section
/-! SUPPORT. The family `EncodeSelectsRow`: the word the encoder writes for a command selects the command's own row of the
opcode map as match and mask (spec/30_encoding.md R60). One lemma per constructor. -/

namespace Sys2Proof.Laws.EncodeSelectsRow

open Sys2Proof

/-- The encoded word selects the row of the command's mnemonic. -/
def Statement (i : Instr) : Prop := ∃ r ∈ opcodeMap, r.mnemonic = i.mnemonic ∧ r.selects (encode i) = true

theorem nop : Statement .nop := ⟨⟨"NOP", 0x00000000, 0xFFFFFFFF⟩, by decide, rfl, by decide⟩
theorem statClr : Statement .statClr := ⟨⟨"STAT_CLR", 0x00000001, 0xFFFFFFFF⟩, by decide, rfl, by decide⟩
theorem crcInit : Statement .crcInit := ⟨⟨"CRC_INIT", 0x00000010, 0xFFFFFFFF⟩, by decide, rfl, by decide⟩

theorem crcByte (imm8 : Byte) : Statement (.crcByte imm8) := by
  refine ⟨⟨"CRC_BYTE", 0x00000011, 0xFFFF00FF⟩, by decide, rfl, ?_⟩
  simp only [OpcodeRow.selects, encode, beq_iff_eq]
  refine BitVec.eq_of_getLsbD_eq fun k hk => ?_
  rw [BitVec.getLsbD_and, wordOf_getLsbD]
  interval_cases k <;> simp

theorem crcHalf (imm16 : Half) : Statement (.crcHalf imm16) := by
  refine ⟨⟨"CRC_HALF", 0x00000012, 0x0000FFFF⟩, by decide, rfl, ?_⟩
  simp only [OpcodeRow.selects, encode, beq_iff_eq]
  refine BitVec.eq_of_getLsbD_eq fun k hk => ?_
  rw [BitVec.getLsbD_and, wordOf_getLsbD]
  interval_cases k <;> simp

theorem crcCheck (imm16 : Half) : Statement (.crcCheck imm16) := by
  refine ⟨⟨"CRC_CHECK", 0x00000013, 0x0000FFFF⟩, by decide, rfl, ?_⟩
  simp only [OpcodeRow.selects, encode, beq_iff_eq]
  refine BitVec.eq_of_getLsbD_eq fun k hk => ?_
  rw [BitVec.getLsbD_and, wordOf_getLsbD]
  interval_cases k <;> simp

theorem shPack : Statement .shPack := ⟨⟨"SH_PACK", 0x00000020, 0xFFFFFFFF⟩, by decide, rfl, by decide⟩
theorem shUnpack : Statement .shUnpack := ⟨⟨"SH_UNPACK", 0x00000021, 0xFFFFFFFF⟩, by decide, rfl, by decide⟩
theorem tsConvert : Statement .tsConvert := ⟨⟨"TS_CONVERT", 0x00000030, 0xFFFFFFFF⟩, by decide, rfl, by decide⟩
theorem tsFromUnix : Statement .tsFromUnix := ⟨⟨"TS_FROM_UNIX", 0x00000031, 0xFFFFFFFF⟩, by decide, rfl, by decide⟩
theorem tsPack : Statement .tsPack := ⟨⟨"TS_PACK", 0x00000032, 0xFFFFFFFF⟩, by decide, rfl, by decide⟩

end Sys2Proof.Laws.EncodeSelectsRow
end

