-- ==== Sys2Proof/Laws/Step.lean ====
section
/-! SUPPORT. What a step can do, said once: the inversion of `step`, `applyMove` and `runCommand` (spec/20_memory.md R45 to
R47, spec/60_exceptions.md R123), and that a command keeps the parameters, the operand registers and the host's side. -/

namespace Sys2Proof.Laws

open Sys2Proof Sys2Proof.Machine

/-- Everything a CMD write can do (spec/20_memory.md R47): an illegal word records ILLEGAL_CMD, any other runs its command. -/
theorem runCommand_cases (v : Word) (s : State) :
    (∃ e, decode v = .error e ∧ runCommand v s = .next (setResult .illegalCmd s)) ∨
    (∃ i, decode v = .ok i ∧ runCommand v s = exec i s) := by
  unfold runCommand
  cases h : decode v with
  | error e => exact .inl ⟨e, rfl, rfl⟩
  | ok i => exact .inr ⟨i, rfl, rfl⟩

/-- Everything a step that gives a next state can do: idle at the program's end, reset, read, write a register, or run a
command. -/
theorem step_cases {s t : State} (h : step s = .next t) :
    (s.program[s.pc]? = none ∧ t = s) ∨
    (s.program[s.pc]? = some .reset ∧ t = advance (platformReset s)) ∨
    (∃ r, s.program[s.pc]? = some (.read (s.params.base + regOffset r) 4) ∧
      t = advance (recordRead (readReg r s) s)) ∨
    (∃ r v, r ≠ .CMD ∧ s.program[s.pc]? = some (.write (s.params.base + regOffset r) 4 v) ∧
      t = advance (writeReg r v s)) ∨
    (∃ v e, s.program[s.pc]? = some (.write s.params.base 4 v) ∧ decode v = .error e ∧
      t = advance (setResult .illegalCmd s)) ∨
    (∃ v i u, s.program[s.pc]? = some (.write s.params.base 4 v) ∧ decode v = .ok i ∧ exec i s = .next u ∧
      t = advance u) := by
  unfold step fetchMove at h
  cases hm : s.program[s.pc]? with
  | none => rw [hm] at h; cases h; exact .inl ⟨rfl, rfl⟩
  | some m =>
    rw [hm] at h
    refine .inr ?_
    cases m with
    | reset => cases h; exact .inl ⟨rfl, rfl⟩
    | read addr size =>
      refine .inr (.inl ?_)
      rcases selectReg_cases s.params addr size with ⟨r, hr, rfl, rfl⟩ | ⟨hr, -⟩ | ⟨hr, -⟩
      · simp only [applyMove, hr, thenAdvance] at h
        cases h
        exact ⟨r, rfl, rfl⟩
      · simp [applyMove, hr, thenAdvance] at h
      · simp [applyMove, hr, thenAdvance] at h
    | write addr size v =>
      refine .inr (.inr ?_)
      rcases selectReg_cases s.params addr size with ⟨r, hr, rfl, rfl⟩ | ⟨hr, -⟩ | ⟨hr, -⟩
      · by_cases hc : r = .CMD
        · subst hc
          refine .inr ?_
          simp only [applyMove, hr] at h
          rcases runCommand_cases v s with ⟨e, hd, hx⟩ | ⟨i, hd, hx⟩
          · rw [hx] at h
            cases h
            exact .inl ⟨v, e, rfl, hd, rfl⟩
          · rw [hx] at h
            cases hu : exec i s with
            | next u => rw [hu] at h; cases h; exact .inr ⟨v, i, u, rfl, hd, hu, rfl⟩
            | fault f => rw [hu] at h; cases h
            | refused r => rw [hu] at h; cases h
        · refine .inl ⟨r, v, hc, rfl, ?_⟩
          cases r <;> first | exact absurd rfl hc | (simp only [applyMove, hr, thenAdvance] at h; cases h; rfl)
      · simp [applyMove, hr, thenAdvance] at h
      · simp [applyMove, hr, thenAdvance] at h

/-- The result code a command ends with. -/
def resultOf (i : Instr) (s : State) : ResultCode :=
  match i with
  | .nop => .ok
  | .statClr => .ok
  | .crcInit => .ok
  | .crcByte _ => .ok
  | .crcHalf _ => .ok
  | .crcCheck h => checkResult h s.crc.value
  | .shPack => packResult s
  | .shUnpack => .ok
  | .tsConvert => convertResult s.tsIn.ms
  | .tsFromUnix =>
    if nanosMax < unixInNanos s ∨ cdsFromUnix (unixInSeconds s) (unixInNanos s) = none then .range else .ok
  | .tsPack => tsPackResult s

/-- The result writes of a command's rule, as they are when it ends with OK. -/
def writesOf (i : Instr) (s : State) : State → State :=
  match i with
  | .nop => fun u => u
  | .statClr => clearSticky
  | .crcInit => storeCrc crcInitValue
  | .crcByte b => storeCrc (crcUpdate s.crc.value b)
  | .crcHalf h => storeCrc (crcUpdate (crcUpdate s.crc.value (firstByte h)) (secondByte h))
  | .crcCheck h => storeCheck h s.crc.value
  | .shPack => storeShBytes (shPackBytes (shFieldsOf s))
  | .shUnpack => storeShFields (shUnpackFields (shBytesOf s))
  | .tsConvert => commitTimestamp s.tsIn.day s.tsIn.ms
  | .tsFromUnix =>
    match cdsFromUnix (unixInSeconds s) (unixInNanos s) with
    | none => fun u => u
    | some (d, m) => commitTimestamp d m
  | .tsPack => storeTsFrame (tsFrameWords (tsFrameBytes s.params.tsLayout s.tsv.pfield s.tsv.day s.tsv.ms))

/-- Every command is the completion (spec/60_exceptions.md R112) of its result code and its writes. -/
theorem exec_eq_finish (i : Instr) (s : State) : exec i s = finish (resultOf i s) (writesOf i s) s := by
  cases i with
  | tsFromUnix =>
    simp only [exec, execTsFromUnix, resultOf, writesOf]
    by_cases hn : nanosMax < unixInNanos s
    · simp only [hn, true_or, if_true]
      rfl
    · cases hc : cdsFromUnix (unixInSeconds s) (unixInNanos s) with
      | none => simp [hn]
      | some dm => simp [hn]
  | _ => rfl

/-- A command keeps whatever every completion and every result write keeps. -/
theorem exec_keeps {α : Type} (g : State → α) {i : Instr} {s t : State} (h : exec i s = .next t)
    (hr : ∀ c u, g (setResult c u) = g u) (hk : ∀ u v, g (keepMismatchData u v) = g v)
    (h1 : ∀ u, g (clearSticky u) = g u) (h2 : ∀ v u, g (storeCrc v u) = g u) (h3 : ∀ x f u, g (storeCheck x f u) = g u)
    (h4 : ∀ b u, g (storeShBytes b u) = g u) (h5 : ∀ f u, g (storeShFields f u) = g u)
    (h6 : ∀ d m u, g (commitTimestamp d m u) = g u) (h7 : ∀ f u, g (storeTsFrame f u) = g u) : g t = g s := by
  cases i with
  | nop => exact finish_keeps g h hr hk rfl
  | statClr => exact finish_keeps g h hr hk (h1 s)
  | crcInit => exact finish_keeps g h hr hk (h2 _ s)
  | crcByte b => exact finish_keeps g h hr hk (h2 _ s)
  | crcHalf x => exact finish_keeps g h hr hk (h2 _ s)
  | crcCheck x => exact finish_keeps g h hr hk (h3 _ _ s)
  | shPack => exact finish_keeps g h hr hk (h4 _ s)
  | shUnpack => exact finish_keeps g h hr hk (h5 _ s)
  | tsConvert => exact finish_keeps g h hr hk (h6 _ _ s)
  | tsFromUnix =>
    simp only [exec, execTsFromUnix] at h
    split at h
    · exact finish_keeps g h hr hk rfl
    · split at h
      · exact finish_keeps g h hr hk rfl
      · exact finish_keeps g h hr hk (h6 _ _ s)
  | tsPack => exact finish_keeps g h hr hk (h7 _ s)

/-- A command keeps the parameters. -/
theorem exec_params {i : Instr} {s t : State} (h : exec i s = .next t) : t.params = s.params := by
  apply exec_keeps State.params h <;> simp

/-- A command keeps the operand registers of the timestamp converter (spec/10_state.md R28 to R31). -/
theorem exec_tsIn {i : Instr} {s t : State} (h : exec i s = .next t) : t.tsIn = s.tsIn := by
  apply exec_keeps State.tsIn h <;> simp

/-- A command keeps the host's program. -/
theorem exec_program {i : Instr} {s t : State} (h : exec i s = .next t) : t.program = s.program := by
  apply exec_keeps State.program h <;> simp

/-- A command keeps the host's index; `step` moves it. -/
theorem exec_pc {i : Instr} {s t : State} (h : exec i s = .next t) : t.pc = s.pc := by
  apply exec_keeps State.pc h <;> simp

/-- A command keeps what the host has read. -/
theorem exec_reads {i : Instr} {s t : State} (h : exec i s = .next t) : t.reads = s.reads := by
  apply exec_keeps State.reads h <;> simp

end Sys2Proof.Laws
end

