-- ==== Sys2Proof/Tests/Slice0.lean ====
section
/-! SUPPORT. Small tests: the words of every command written out from spec/30_encoding.md, refused ill-formed terms, at most two
single-command tests per instruction with results from spec/95_test_vectors.md, single steps, and for every statement with
hypotheses a witness that meets them. -/

namespace Sys2Proof.Tests

open Sys2Proof Sys2Proof.Machine Sys2Proof.Safety

/-- The reset state with a host program. -/
def prog (ms : List HostMove) : State := { State.reset with program := ms }

/-- A field of an answer's next state. -/
def after {α : Type} (a : Answer) (f : State → α) : Option α :=
  match a with
  | .next t => some (f t)
  | .fault _ => none
  | .refused _ => none

/-- The fault of an answer. -/
def faultOf (a : Answer) : Option Fault :=
  match a with
  | .next _ => none
  | .fault f => some f
  | .refused _ => none

/-- The command a word decodes to. -/
def okOf (w : Word) : Option Instr :=
  match decode w with
  | .ok i => some i
  | .error _ => none

/-- Why a word is illegal. -/
def errOf (w : Word) : Option IllegalWord :=
  match decode w with
  | .ok _ => none
  | .error e => some e

def withCrc (v : Half) : State := { State.reset with crc := ⟨v, 0, 0⟩ }
theorem withCrc_value (v : Half) : (withCrc v).crc.value = v := rfl
def withSh (sh : SecHdr) : State := { State.reset with sh := sh }
def withTs (d : Half) (m : Word) : State := { State.reset with tsIn := ⟨d, m, 0, 0, 0⟩ }
def withUnix (hi lo ns : Word) : State := { State.reset with tsIn := ⟨0, 0, lo, hi, ns⟩ }
def withTsv (l : TsLayout) (d : Half) (m : Word) : State :=
  { State.reset with
    params := { Params.default with tsLayout := l }
    status := { State.reset.status with tsValid := true }
    tsv := { State.reset.tsv with pfield := 0x40, day := d, ms := m } }

/-! ### Decoding: words written out from the encoding (spec/30_encoding.md R57, R60) -/

theorem test_decode_nop : okOf 0b00000000000000000000000000000000#32 = some .nop := by decide
theorem test_decode_statClr : okOf 0b00000000000000000000000000000001#32 = some .statClr := by decide
theorem test_decode_crcInit : okOf 0b00000000000000000000000000010000#32 = some .crcInit := by decide
theorem test_decode_crcByte : okOf 0b00000000000000001010010100010001#32 = some (.crcByte 0xA5) := by decide
theorem test_decode_crcHalf : okOf 0b00010010001101000000000000010010#32 = some (.crcHalf 0x1234) := by decide
theorem test_decode_crcCheck : okOf 0b00101001101100010000000000010011#32 = some (.crcCheck 0x29B1) := by decide
theorem test_decode_shPack : okOf 0b00000000000000000000000000100000#32 = some .shPack := by decide
theorem test_decode_shUnpack : okOf 0b00000000000000000000000000100001#32 = some .shUnpack := by decide
theorem test_decode_tsConvert : okOf 0b00000000000000000000000000110000#32 = some .tsConvert := by decide
theorem test_decode_tsFromUnix : okOf 0b00000000000000000000000000110001#32 = some .tsFromUnix := by decide
theorem test_decode_tsPack : okOf 0b00000000000000000000000000110010#32 = some .tsPack := by decide
/-- spec/95_test_vectors.md 2.2. -/
theorem test_illegal_opcodes :
    [0x000000FF#32, 0x00000002#32, 0x0000000F#32, 0x00000014#32, 0x00000022#32, 0x00000033#32].map errOf =
      List.replicate 6 (some .unassignedOpcode) := by decide
theorem test_illegal_fields :
    [0x00000100#32, 0x00010000#32, 0x00010010#32, 0x00010011#32, 0x00000112#32, 0x00000113#32, 0x00000120#32, 0x80000030#32,
      0x00000132#32].map errOf = List.replicate 9 (some .mustBeZero) := by decide
theorem test_decodeTableWord : decodeTableWord 32 0x29B10013 = some (.crcCheck 0x29B1) := by decide
theorem test_map_rows_disjoint :
    opcodeMap.Pairwise (fun a b => a.pattern &&& (a.mask &&& b.mask) ≠ b.pattern &&& (a.mask &&& b.mask)) := by decide

/-! ### Ill-formed terms are refused. `Instr` has no ill-formed term: its immediates have their fields' widths. -/

theorem test_params_base_refused : Params.wellFormed { Params.default with base := 0x1001 } = false := by decide
theorem test_params_known_refused : Params.wellFormed { Params.default with known := 0x0003 } = false := by decide
theorem test_params_default_ok : Params.default.wellFormed = true := by decide
theorem test_asm_byte_refused : AsmLine.wellFormed (.crcByte 256) = false ∧ AsmLine.wellFormed (.crcByte (-1)) = false := by
  decide
theorem test_asm_half_refused : AsmLine.wellFormed (.crcHalf 65536) = false ∧ AsmLine.wellFormed (.crcHalf (-1)) = false := by
  decide
theorem test_asm_check_refused : AsmLine.wellFormed (.crcCheck 65536) = false ∧ assembleLine Params.default (.crcCheck (-1)) = none := by
  decide
theorem test_move_misaligned_refused : HostMove.wellFormed Params.default (.write 0x02 4 0x10) = false := by decide
theorem test_move_unmapped_refused : HostMove.wellFormed Params.default (.read 0x5C 4) = false := by decide
theorem test_move_size_refused : HostMove.wellFormed Params.default (.read 0x08 2) = false := by decide
theorem test_move_below_base_refused : HostMove.wellFormed { Params.default with base := 256 } (.read 252 4) = false := by decide

/-! ### One command (spec/95_test_vectors.md 2.2 to 2.9) -/

theorem test_nop_keeps_sticky :
    after (exec .nop { State.reset with status := ⟨3, true, false, false, false⟩ }) (readReg .STATUS) = some 0x10#32 := by decide
theorem test_statClr_B3 :
    after (exec .statClr { State.reset with status := ⟨3, true, true, false, true⟩ }) (readReg .STATUS) = some 0xA0#32 := by decide
theorem test_crcInit : after (exec .crcInit (withCrc 0x29B1)) (fun t => t.crc.value) = some 0xFFFF#16 := by decide
theorem test_crcByte_31 : after (exec (.crcByte 0x31) State.reset) (fun t => t.crc.value) = some 0xC782#16 := by decide
theorem test_crcByte_reduced : after (exec (.crcByte 0x00) (withCrc 0x8000)) (fun t => t.crc.value) = some 0x9188#16 := by decide
theorem test_crcHalf_order : after (exec (.crcHalf 0x1234) State.reset) (fun t => t.crc.value) = some 0x0EC9#16 := by decide +kernel
theorem test_crcHalf_cancels : after (exec (.crcHalf 0xFFFF) State.reset) (fun t => t.crc.value) = some 0x0000#16 := by decide +kernel
theorem test_crcCheck_match :
    after (exec (.crcCheck 0x29B1) (withCrc 0x29B1)) (fun t => (readReg .CHK_INFO t, readReg .STATUS t)) =
      some (0x29B129B1#32, 0x20#32) := by decide
theorem test_crcCheck_mismatch :
    after (exec (.crcCheck 0x29B0) (withCrc 0x29B1)) (fun t => (readReg .CHK_INFO t, readReg .STATUS t)) =
      some (0x29B029B1#32, 0x13#32) := by decide
theorem test_shPack_masks_ack :
    after (exec .shPack (withSh ⟨0x1A, 2, 0xC8, 0x7F, 0xBEEF, 0x11, 0x11, 0x11, 0x11, 0x22⟩))
      (fun t => (readReg .SH_FRAME0 t, readReg .SH_FRAME1 t, readReg .SH_FIELDS t)) =
      some (0x2AC87FBE#32, 0xEF000000#32, 0x7FC8021A#32) := by decide
theorem test_shPack_refuses_version :
    after (exec .shPack (withSh ⟨0x0F, 1, 17, 1, 0, 0x11, 0x11, 0x11, 0x11, 0x22⟩))
      (fun t => (readReg .SH_FRAME0 t, readReg .SH_FRAME1 t, readReg .STATUS t)) =
      some (0x11111111#32, 0x22000000#32, 0x12#32) := by decide
theorem test_shUnpack_unknown :
    after (exec .shUnpack (withSh ⟨0, 0, 0, 0, 0, 0xF3, 0x05, 0x06, 0x07, 0x08⟩))
      (fun t => (readReg .SH_FIELDS t, readReg .SH_SRCID t, readReg .STATUS t)) =
      some (0x06050F03#32, 0x0708#32, 0x00#32) := by decide
theorem test_shUnpack_known :
    after (exec .shUnpack (withSh ⟨0, 0, 0, 0, 0, 0x1A, 0x0B, 0x0C, 0x0D, 0x0E⟩))
      (fun t => (readReg .SH_FIELDS t, readReg .SH_SRCID t, readReg .STATUS t)) =
      some (0x0C0B010A#32, 0x0D0E#32, 0x40#32) := by decide
theorem test_tsConvert_negative :
    after (exec .tsConvert (withTs 0 1500))
      (fun t => (readReg .UNIX_HI t, readReg .UNIX_LO t, readReg .NANOS t, readReg .CAL_DATE t, readReg .CAL_TIME t)) =
      some (0xFFFFFFFF#32, 0xE96DA181#32, 500000000#32, 0x07A60101#32, 0x00000001#32) := by decide
theorem test_tsConvert_top :
    after (exec .tsConvert (withTs 65535 86399999))
      (fun t => (readReg .UNIX_HI t, readReg .UNIX_LO t, readReg .CAL_DATE t, readReg .CAL_TIME t)) =
      some (0x00000001#32, 0x3AEDA17F#32, 0x08590606#32, 0x00173B3B#32) := by decide
theorem test_tsFromUnix_minus_one :
    after (exec .tsFromUnix (withUnix 0xFFFFFFFF 0xFFFFFFFF 999999999))
      (fun t => (readReg .TSV_PDAY t, readReg .TSV_MS t, readReg .NANOS t, readReg .CAL_DATE t, readReg .CAL_TIME t)) =
      some (0x4000111E#32, 0x05265BFF#32, 999000000#32, 0x07B10C1F#32, 0x00173B3B#32) := by decide
theorem test_tsFromUnix_range :
    after (exec .tsFromUnix (withUnix 0x00000001 0x3AEDA180 0)) (fun t => (readReg .TSV_PDAY t, readReg .STATUS t)) =
      some (0#32, 0x14#32) := by decide
theorem test_tsPack_cds7 :
    after (exec .tsPack (withTsv .cds7 15340 43200123)) (fun t => (t.tsFrame.w0, t.tsFrame.w1)) =
      some (0x403BEC02#32, 0x932E7B00#32) := by decide
theorem test_tsPack_rsv8 :
    after (exec .tsPack (withTsv .rsv8 15340 43200123)) (fun t => (t.tsFrame.w0, t.tsFrame.w1)) =
      some (0x403BEC00#32, 0x02932E7B#32) := by decide

/-! ### Steps (spec/95_test_vectors.md 2.1) -/

theorem test_step_reads_config : after (step (prog [.read 0x58 4])) (fun t => (t.reads, t.pc)) = some ([0x00074002#32], 1) := by
  decide
theorem test_step_write_drops_reserved :
    after (step (prog [.write 0x10 4 0x0111F20F])) (readReg .SH_FIELDS) = some 0x0111020F#32 := by decide
theorem test_step_ro_write_ignored :
    after (step (prog [.write 0x04 4 0xFFFFFFFF])) (readReg .STATUS) = some 0#32 := by decide
theorem test_step_bus_errors :
    [HostMove.read 0x5C 4, .read 0xFC 4, .write 0x0A 4 0, .read 0x08 1, .read 0x08 2, .read 0x08 8, .write 0x02 4 0x10].map
      (fun m => faultOf (step (prog [m]))) = List.replicate 7 (some .busError) := by decide
theorem test_step_fetch_word :
    after (step (State.reset.withFetchWord 32 0x00003111)) (fun t => t.crc.value) = some 0xC782#16 := by decide
theorem test_step_illegal_word :
    after (step (State.reset.withFetchWord 32 0x000000FF)) (readReg .STATUS) = some 0x11#32 := by decide

/-! ### Witnesses: a concrete state that meets the hypotheses of each statement, at the boundaries of its clauses -/

theorem witness_reset_column : State.reset = State.resetWith Params.default := rfl
theorem witness_next_reset : NextReset (prog [.reset]) := rfl
theorem witness_runCommand_legal : ∃ t, runCommand 0x00000010#32 (withCrc 5) = .next t := ⟨_, rfl⟩
theorem witness_runCommand_illegal : ∃ t, runCommand 0x000000FF#32 (withCrc 5) = .next t := ⟨_, rfl⟩
theorem witness_read_first : NextRead (prog [.read 0x00 4]) .CMD := rfl
theorem witness_read_last : NextRead (prog [.read 0x58 4]) .CONFIG := rfl
theorem witness_read_twice :
    ∃ t, step (prog [.read 0x04 4, .read 0x04 4]) = .next t ∧ NextRead (prog [.read 0x04 4, .read 0x04 4]) .STATUS ∧
      NextRead t .STATUS := ⟨_, rfl, rfl, rfl⟩
theorem witness_write_rw : RegName.CRC ∈ rwRegisters ∧ NextWrite (prog [.write 0x08 4 0xABCD1234]) .CRC 0xABCD1234#32 :=
  ⟨by decide, rfl⟩
theorem witness_write_ro : RegName.CONFIG ∈ roRegisters ∧ NextWrite (prog [.write 0x58 4 0xFFFFFFFF]) .CONFIG 0xFFFFFFFF#32 :=
  ⟨by decide, rfl⟩
theorem witness_write_cmd : NextWrite (prog [.write 0x00 4 0x10]) .CMD 0x10#32 := rfl
theorem witness_write_reserved : RegName.SH_FIELDS ≠ .CMD ∧ NextWrite (prog [.write 0x10 4 0xFFFFFFFF]) .SH_FIELDS 0xFFFFFFFF#32 :=
  ⟨by decide, rfl⟩
theorem witness_mapped_ends :
    (prog [.read 0x58 4]).program[(prog [.read 0x58 4]).pc]? = some (.read (Params.default.base + 0x58) 4) := rfl
theorem witness_refused_read : (prog [.read 0xFF 1]).program[0]? = some (.read (Params.default.base + 0xFF) 1) := rfl
theorem witness_refused_write : (prog [.write 0x5C 4 0]).program[0]? = some (.write (Params.default.base + 0x5C) 4 0) := rfl
/-- A block whose window starts at 256, and a transaction on either side of it. -/
def highBase (m : HostMove) : State := { prog [m] with params := { Params.default with base := 256 } }
theorem witness_below_window : 255 < (highBase (.read 255 4)).params.base ∧
    (highBase (.read 255 4)).program[(highBase (.read 255 4)).pc]? = some (.read 255 4) := ⟨by decide, rfl⟩
theorem witness_above_window : (highBase (.write 512 4 0)).params.base + 256 ≤ 512 ∧
    (highBase (.write 512 4 0)).program[(highBase (.write 512 4 0)).pc]? = some (.write 512 4 0) := ⟨by decide, rfl⟩
theorem witness_step_next : ∃ t, step (prog [.write 0x58 4 0xFFFFFFFF]) = .next t := ⟨_, rfl⟩
theorem witness_wellFormed_instr : (Instr.crcByte 0xFF).wellFormed = true ∧ (Instr.crcHalf 0xFFFF).wellFormed = true := by decide
theorem witness_decodes : decode 0xFFFF0012#32 = .ok (.crcHalf 0xFFFF) := rfl
theorem witness_selects :
    (⟨"CRC_BYTE", 0x00000011, 0xFFFF00FF⟩ : OpcodeRow) ∈ opcodeMap ∧
    OpcodeRow.selects ⟨"CRC_BYTE", 0x00000011, 0xFFFF00FF⟩ 0x0000FF11#32 = true := by decide
theorem witness_illegal_unassigned : decode 0x00000033#32 = .error .unassignedOpcode ∧ NextCommand (prog [.write 0 4 0x33]) 0x33#32 :=
  ⟨rfl, rfl⟩
theorem witness_illegal_mustBeZero : decode 0x00010011#32 = .error .mustBeZero ∧
    NextCommand (prog [.write 0 4 0x00010011]) 0x00010011#32 := ⟨rfl, rfl⟩
theorem witness_zero_word : NextCommand (prog [.write 0 4 0]) 0x00000000#32 := rfl
theorem witness_step_runs : NextCommand (prog [.write 0 4 0x3111]) 0x3111#32 ∧ decode 0x3111#32 = .ok (.crcByte 0x31) ∧
    (Instr.crcByte 0x31).wellFormed = true := ⟨rfl, rfl, by decide⟩
theorem witness_finished : State.reset.program.length ≤ State.reset.pc := by decide
theorem witness_legal_move : ∀ m, (prog [.read 0x58 4]).program[(prog [.read 0x58 4]).pc]? = some m →
    HostMove.wellFormed (prog [.read 0x58 4]).params m = true := by
  intro m h
  cases h
  decide
theorem witness_legal_program : LegalProgram (prog [.write 0x10 4 0x200, .reset, .write 0 4 0x20]) ∧
    (prog [.write 0x10 4 0x200, .reset, .write 0 4 0x20]).pc ≤ 3 := by
  refine ⟨?_, by decide⟩
  intro m h
  simp only [prog, State.reset, State.resetWith, List.drop_zero, List.mem_cons, List.not_mem_nil, or_false] at h
  rcases h with rfl | rfl | rfl <;> decide
theorem witness_nop_example : readReg .STATUS { State.reset with status := ⟨3, true, false, false, false⟩ } = 0x13#32 := by decide
theorem witness_statClr_example : readReg .STATUS { State.reset with status := ⟨3, true, true, false, true⟩ } = 0xB3#32 := by decide
theorem witness_statClr_only : ∃ s t, exec .statClr s = .next t ∧ s.status.sticky = true ∧ t.status.sticky = false :=
  ⟨{ State.reset with status := ⟨3, true, true, false, true⟩ }, _, rfl, rfl, rfl⟩
theorem witness_crcInit_twice : ∃ t u, exec .crcInit (withCrc 1) = .next t ∧ exec .crcInit t = .next u := ⟨_, _, rfl, rfl⟩
theorem witness_crcByte_illegal : (0x00013111#32 : Word).extractLsb' 0 8 = 0x11#8 ∧ (0x00013111#32 : Word).extractLsb' 16 16 ≠ 0#16 := by
  decide
theorem witness_crcHalf_illegal : (0x12340112#32 : Word).extractLsb' 0 8 = 0x12#8 ∧ (0x12340112#32 : Word).extractLsb' 8 8 ≠ 0#8 := by
  decide
theorem witness_crcHalf_example : State.reset.crc.value = 0xFFFF#16 := rfl
theorem witness_crcCheck_match : (0x29B1#16 : Half) = (withCrc 0x29B1).crc.value := rfl
theorem witness_crcCheck_mismatch : (0x29B0#16 : Half) ≠ (withCrc 0x29B1).crc.value := by decide
theorem witness_crcCheck_illegal : (0x29B10113#32 : Word).extractLsb' 0 8 = 0x13#8 ∧ (0x29B10113#32 : Word).extractLsb' 8 8 ≠ 0#8 := by
  decide
theorem witness_fed : fedByAll [.crcByte 0x31, .crcHalf 0x3233] = some [0x31, 0x32, 0x33] ∧ [Instr.crcByte 0x31, .crcHalf 0x3233] ≠ [] := by
  decide
theorem witness_residue : (withCrc (crc16 [])).crc.value = crc16 [] := rfl
theorem witness_flip : 1 < [0x18#8, 0x02#8].length ∧ 7 < 8 ∧
    (withCrc (crc16 (flipBit [0x18, 0x02] 1 7))).crc.value = crc16 (flipBit [0x18, 0x02] 1 7) := ⟨by decide, by decide, withCrc_value _⟩
theorem witness_saved_digest : (withCrc (crcFold 0xFFFF#16 [0x31])).crc.value = crcFold 0xFFFF#16 [0x31] ∧
    fedByAll [.crcByte 0x32] = some [0x32] ∧ [Instr.crcByte 0x32] ≠ [] := ⟨rfl, rfl, by decide⟩
/-- The secondary header of spec/95_test_vectors.md 1.4. -/
def packable : State := withSh ⟨0x0F, 2, 17, 1, 0, 0, 0, 0, 0, 0⟩
theorem witness_packable : packable.sh.version = packable.params.pusVersion ∧ packable.params.wellFormed = true ∧
    packable.params.pusVersion = 2#4 ∧ readReg .SH_FIELDS packable = 0x0111020F#32 ∧ readReg .SH_SRCID packable = 0#32 := by decide
theorem witness_unpackable : (withSh ⟨0, 1, 0, 0, 0, 0, 0, 0, 0, 0⟩).sh.version ≠ Params.default.pusVersion := by decide
theorem witness_pus_not_zero : Params.default.pusVersion ≠ 0#4 := by decide
theorem witness_pus_zero : (Params.mk 0 0 .cds7 0x40 1).pusVersion = 0#4 := rfl
theorem witness_unpack : ∃ t, exec .shUnpack (withSh ⟨0, 0, 0, 0, 0, 0xF3, 5, 6, 7, 8⟩) = .next t ∧
    t.sh.version ≠ t.params.pusVersion := ⟨_, rfl, by decide⟩
theorem witness_unpack_example : State.reset.params.known = 0x0007#16 ∧
    readReg .SH_FRAME0 (withSh ⟨0, 0, 0, 0, 0, 0xF3, 5, 6, 7, 8⟩) = 0xF3050607#32 ∧
    readReg .SH_FRAME1 (withSh ⟨0, 0, 0, 0, 0, 0xF3, 5, 6, 7, 8⟩) = 0x08000000#32 := by decide
theorem witness_ms_in_range : (withTs 0 86399999).tsIn.ms.toNat ≤ 86399999 := by decide
theorem witness_ms_out_of_range : 86399999 < (withTs 0 86400000).tsIn.ms.toNat := by decide
theorem witness_convert_example : (withTs 4383 0).params.pfield = 0x40#8 ∧ (withTs 4383 0).tsIn.day = 4383#16 ∧
    (withTs 4383 0).tsIn.ms = 0#32 := by decide
theorem witness_epoch : (withTs 0 0).tsIn.day = 0#16 ∧ (withTs 0 0).tsIn.ms = 0#32 := by decide
theorem witness_unix_first : unixInSeconds (withUnix 0xFFFFFFFF 0xE96DA180 999999999) = -378691200 := by decide
theorem witness_unix_last : unixInSeconds (withUnix 0x00000001 0x3AEDA17F 0) = 5283619199 := by decide
theorem witness_unix_too_early : unixInSeconds (withUnix 0xFFFFFFFF 0xE96DA17F 0) = -378691201 := by decide
theorem witness_unix_ns_too_big : 999999999 < unixInNanos (withUnix 0 0 1000000000) := by decide
theorem witness_unix_example : (withUnix 0 0x386DEC40 123456789).tsIn.secLo = 0x386DEC40#32 ∧
    (withUnix 0 0x386DEC40 123456789).tsIn.ns = 123456789#32 ∧ Params.default.pfield = 0x40#8 := by decide
theorem witness_round_trip_convert : ∃ t, (withTs 65535 86399999).tsIn.ms.toNat ≤ 86399999 ∧
    exec .tsConvert (withTs 65535 86399999) = .next t := ⟨_, by decide, rfl⟩
theorem witness_round_trip_unix :
    after (exec .tsFromUnix (withUnix 0xFFFFFFFF 0xE96DA180 999999999)) (fun t => t.status.err) = some 0#4 := by decide
theorem witness_tsPack_invalid : State.reset.status.tsValid = false := rfl
theorem witness_tsPack_cds7 : (withTsv .cds7 0 0).status.tsValid = true ∧ (withTsv .cds7 0 0).params.tsLayout = .cds7 := by decide
theorem witness_tsPack_rsv8 : (withTsv .rsv8 0 0).status.tsValid = true ∧ (withTsv .rsv8 0 0).params.tsLayout = .rsv8 := by decide
theorem witness_tsPack_example : (withTsv .rsv8 15340 43200123).tsv.pfield = 0x40#8 ∧ (withTsv .rsv8 15340 43200123).tsv.day = 15340#16 ∧
    (withTsv .rsv8 15340 43200123).tsv.ms = 43200123#32 := by decide
theorem witness_tsPack_twice : ∃ t u, exec .tsPack (withTsv .rsv8 1 2) = .next t ∧ exec .tsPack t = .next u := ⟨_, _, rfl, rfl⟩
theorem witness_status_table :
    (∃ t, exec .nop State.reset = .next t) ∧ (∃ t, exec .statClr State.reset = .next t) ∧
    (∃ t, exec (.crcCheck 0xFFFF) State.reset = .next t) ∧ (∃ t, exec .shPack State.reset = .next t) ∧
    (∃ t, exec .shUnpack State.reset = .next t) ∧ (∃ t, exec .tsConvert State.reset = .next t) ∧
    (∃ t, exec .tsPack State.reset = .next t) ∧
    (decode 0xFF#32 = .error .unassignedOpcode ∧ ∃ t, runCommand 0xFF#32 State.reset = .next t) :=
  ⟨⟨_, rfl⟩, ⟨_, rfl⟩, ⟨_, rfl⟩, ⟨_, rfl⟩, ⟨_, rfl⟩, ⟨_, rfl⟩, ⟨_, rfl⟩, rfl, ⟨_, rfl⟩⟩
theorem witness_step_sets_error : after (step (prog [.write 0 4 0x32])) (fun t => (t.status.err, t.status.sticky)) = some (5#4, true) := by
  decide
theorem witness_step_clears_sticky :
    after (step { prog [.write 0 4 1] with status := ⟨5, true, false, false, false⟩ }) (fun t => t.status.sticky) = some false := by
  decide
theorem witness_step_sets_match : NextCommand (prog [.write 0 4 0xFFFF0013]) (encode (.crcCheck 0xFFFF)) ∧
    after (step (prog [.write 0 4 0xFFFF0013])) (fun t => (t.status.matched, t.crc.found)) = some (true, 0xFFFF#16) := ⟨rfl, by decide⟩
theorem witness_step_sets_verKnown : after (step (prog [.write 0 4 0x21])) (fun t => t.status.verKnown) = some true := by decide
theorem witness_step_commits :
    after (step (prog [.write 0 4 0x30])) (fun t => (t.status.tsValid, t.tsv.year)) = some (true, 1958#16) := by decide
theorem witness_step_commits_unix :
    after (step (prog [.write 0 4 0x31])) (fun t => (t.status.tsValid, t.tsv.year)) = some (true, 1970#16) := by decide
theorem witness_reset_clears_valid : after (step { withTsv .cds7 1 2 with program := [.reset] }) (fun t => t.status.tsValid) = some false := by
  decide
theorem witness_step_writes_frames :
    after (step { withTsv .cds7 1 2 with program := [.write 0 4 0x32] }) (fun t => t.tsFrame.w0) = some 0x40000100#32 ∧
    after (step { packable with program := [.write 0 4 0x20] }) (readReg .SH_FRAME0) = some 0x2F110100#32 := by decide
theorem witness_error_keeps : after (runCommand 0x20#32 State.reset) (fun t => t.status.err) = some 2#4 ∧
    after (runCommand 0x13#32 State.reset) (fun t => t.status.err) = some 3#4 := by decide
theorem witness_invariant : BlockInv State.reset := by
  refine ⟨⟨by decide, ?_⟩, ?_, ?_⟩
  · intro h
    exact absurd rfl h
  · exact rfl
  · exact rfl
theorem witness_timestampInv : TimestampInv State.reset ∧ State.reset.status.tsValid = false := ⟨rfl, rfl⟩

end Sys2Proof.Tests
end

/-! PROOFS. Decoding and encoding undo each other (spec/30_encoding.md R56 to R61). -/

namespace Sys2Proof.Proofs

open Sys2Proof Sys2Proof.Laws

/-- The word of a command decodes to that command. -/
@[simp] theorem decode_encode (i : Instr) : decode (encode i) = .ok i := by
  cases i with
  | crcByte b => simp only [decode, encode, opField_wordOf, bField_wordOf, hField_wordOf]; rfl
  | crcHalf h => simp only [decode, encode, opField_wordOf, bField_wordOf, hField_wordOf]; rfl
  | crcCheck h => simp only [decode, encode, opField_wordOf, bField_wordOf, hField_wordOf]; rfl
  | _ => rfl

/-- A row of the opcode map whose must-be-zero fields are zero gives back the word of its fields. -/
theorem encode_of_opcodeLookup {op b : Byte} {h : Half} {f : Format} {i : Instr}
    (hl : opcodeLookup op b h = some (f, i)) (hf : formatOk f b h = true) : encode i = wordOf h b op := by
  unfold opcodeLookup at hl
  split at hl
  case h_12 => cases hl
  all_goals
    rename_i hop
    cases hl
    have hword : wordOf h b op = wordOf h b (BitVec.ofNat 8 op.toNat) := by simp
    rw [hword, hop]
    simp only [formatOk, Bool.and_eq_true, beq_iff_eq] at hf
    simp [encode, hf]

/-- A word that decodes to a command is the word of that command. -/
theorem eq_encode_of_decode {w : Word} {i : Instr} (h : decode w = .ok i) : w = encode i := by
  unfold decode at h
  split at h
  · cases h
  · rename_i f j hl
    split at h
    · rename_i hf
      cases h
      rw [encode_of_opcodeLookup hl hf, wordOf_fields]
    · cases h

end Sys2Proof.Proofs

/-! PROOFS. Register reads and writes field by field: reserved bits read 0 and are dropped on a write, CONFIG and STATUS
hold their fields at their bits (spec/10_state.md R17 to R21, R36, R38), and what a step does that the host's next move
names (spec/20_memory.md R46, R47). -/

namespace Sys2Proof.Proofs

open Sys2Proof Sys2Proof.Machine Sys2Proof.Safety Sys2Proof.Laws

/-! ### Reserved bits -/

/-- Two words that have no 1 in common in the upper field and none in the lower have none in common. -/
theorem append_and_append_eq_zero {a b : Nat} {x m : BitVec a} {y n : BitVec b} (hx : x &&& m = 0#a)
    (hy : y &&& n = 0#b) : (x ++ y) &&& (m ++ n) = 0#(a + b) := by
  rw [BitVec.and_append, hx, hy, BitVec.zero_append_zero]

/-- Outside its stored bits a register reads 0. A register with reserved bits is the concatenation of its fields, and its
reserved mask is the concatenation of the fields' masks, so each field meets its own mask. -/
theorem readReg_and_reserved (r : RegName) (s : State) : readReg r s &&& ~~~ storedBits r = 0#32 := by
  cases r with
  | STATUS =>
    rw [show ~~~ storedBits .STATUS = (-1#24) ++ 0#1 ++ 0#1 ++ 0#1 ++ 0#1 ++ 0#4 by decide]
    iterate 5 refine append_and_append_eq_zero ?_ BitVec.and_zero
    exact BitVec.zero_and
  | CRC =>
    rw [show ~~~ storedBits .CRC = (-1#16) ++ 0#16 by decide]
    exact append_and_append_eq_zero BitVec.zero_and BitVec.and_zero
  | SH_FIELDS =>
    rw [show ~~~ storedBits .SH_FIELDS = 0#8 ++ 0#8 ++ (-1#4) ++ 0#4 ++ 0#8 by decide]
    iterate 2 refine append_and_append_eq_zero ?_ BitVec.and_zero
    refine append_and_append_eq_zero ?_ BitVec.zero_and
    exact append_and_append_eq_zero BitVec.and_zero BitVec.and_zero
  | SH_SRCID =>
    rw [show ~~~ storedBits .SH_SRCID = (-1#16) ++ 0#16 by decide]
    exact append_and_append_eq_zero BitVec.zero_and BitVec.and_zero
  | SH_FRAME1 =>
    rw [show ~~~ storedBits .SH_FRAME1 = 0#8 ++ (-1#24) by decide]
    exact append_and_append_eq_zero BitVec.and_zero BitVec.zero_and
  | TS_DAY_IN =>
    rw [show ~~~ storedBits .TS_DAY_IN = (-1#16) ++ 0#16 by decide]
    exact append_and_append_eq_zero BitVec.zero_and BitVec.and_zero
  | TSV_PDAY =>
    rw [show ~~~ storedBits .TSV_PDAY = 0#8 ++ (-1#8) ++ 0#16 by decide]
    refine append_and_append_eq_zero ?_ BitVec.and_zero
    exact append_and_append_eq_zero BitVec.and_zero BitVec.zero_and
  | CAL_TIME =>
    rw [show ~~~ storedBits .CAL_TIME = (-1#8) ++ 0#8 ++ 0#8 ++ 0#8 by decide]
    iterate 3 refine append_and_append_eq_zero ?_ BitVec.and_zero
    exact BitVec.zero_and
  | CONFIG =>
    rw [show ~~~ storedBits .CONFIG = 0#16 ++ 0#8 ++ (-1#3) ++ 0#1 ++ 0#4 by decide]
    iterate 2 refine append_and_append_eq_zero ?_ BitVec.and_zero
    refine append_and_append_eq_zero ?_ BitVec.zero_and
    exact append_and_append_eq_zero BitVec.and_zero BitVec.and_zero
  | CMD => exact BitVec.zero_and
  | _ => exact BitVec.and_zero

/-- A field that lies under ones of a mask is not changed by the mask. -/
theorem extractLsb'_and_of_ones {v m : Word} {i n : Nat} (h : m.extractLsb' i n = BitVec.allOnes n) :
    (v &&& m).extractLsb' i n = v.extractLsb' i n := by
  rw [BitVec.extractLsb'_and, h, BitVec.and_allOnes]

/-- A write stores nothing of the reserved bits: each stored field lies under ones of the register's mask. -/
theorem writeReg_and_storedBits (r : RegName) (v : Word) (s : State) :
    writeReg r (v &&& storedBits r) s = writeReg r v s := by
  cases r with
  | CRC | SH_FIELDS | SH_SRCID | SH_FRAME0 | SH_FRAME1 | TS_DAY_IN =>
    simp (disch := decide) only [writeReg, storedBits, lane, extractLsb'_and_of_ones]
  | TS_MS_IN | UNIX_IN_LO | UNIX_IN_HI | UNIX_IN_NS =>
    exact congrArg (writeReg _ · s) BitVec.and_allOnes
  | _ => rfl

/-! ### Fields of STATUS and CONFIG -/

theorem statusWord_err (st : Status) : (statusWord st).extractLsb' 0 4 = st.err :=
  BitVec.extractLsb'_append_eq_right

/-- A bit above the lower part is a bit of the upper part. -/
theorem getLsbD_append_of_le {a b i : Nat} (x : BitVec a) (y : BitVec b) (h : b ≤ i) :
    (x ++ y).getLsbD i = x.getLsbD (i - b) := by
  rw [BitVec.getLsbD_append, if_neg (by omega)]

/-- The lowest bit of a word that ends in a flag is the flag. -/
theorem getLsbD_append_flagBit {a : Nat} (x : BitVec a) (b : Bool) : (x ++ flagBit b).getLsbD 0 = b := by
  rw [BitVec.getLsbD_append, if_pos (by decide), flagBit, BitVec.getLsbD_ofBool]
  simp

theorem statusWord_sticky (st : Status) : (statusWord st).getLsbD 4 = st.sticky := by
  rw [statusWord, getLsbD_append_of_le _ _ (by decide)]
  exact getLsbD_append_flagBit _ _

theorem statusWord_matched (st : Status) : (statusWord st).getLsbD 5 = st.matched := by
  rw [statusWord]
  iterate 2 rw [getLsbD_append_of_le _ _ (by decide)]
  exact getLsbD_append_flagBit _ _

theorem statusWord_verKnown (st : Status) : (statusWord st).getLsbD 6 = st.verKnown := by
  rw [statusWord]
  iterate 3 rw [getLsbD_append_of_le _ _ (by decide)]
  exact getLsbD_append_flagBit _ _

theorem statusWord_tsValid (st : Status) : (statusWord st).getLsbD 7 = st.tsValid := by
  rw [statusWord]
  iterate 4 rw [getLsbD_append_of_le _ _ (by decide)]
  exact getLsbD_append_flagBit _ _

theorem configWord_pusVersion (p : Params) : (configWord p).extractLsb' 0 4 = p.pusVersion :=
  BitVec.extractLsb'_append_eq_right

theorem configWord_layout (p : Params) : (configWord p).getLsbD 4 = decide (p.tsLayout = .rsv8) := by
  rw [configWord, getLsbD_append_of_le _ _ (by decide), BitVec.getLsbD_append, if_pos (by decide)]
  cases p.tsLayout <;> rfl

theorem configWord_reserved (p : Params) : (configWord p).extractLsb' 5 3 = 0#3 := by
  rw [configWord]
  iterate 2 rw [BitVec.extractLsb'_append_eq_of_le (by decide)]
  exact BitVec.extractLsb'_append_eq_right

theorem configWord_pfield (p : Params) : (configWord p).extractLsb' 8 8 = p.pfield := by
  rw [configWord]
  iterate 3 rw [BitVec.extractLsb'_append_eq_of_le (by decide)]
  exact BitVec.extractLsb'_append_eq_right

theorem configWord_known (p : Params) : (configWord p).extractLsb' 16 16 = p.known := by
  rw [configWord]
  iterate 3 rw [BitVec.extractLsb'_append_eq_of_le (by decide)]
  exact BitVec.extractLsb'_append_eq_left

end Sys2Proof.Proofs

/-! PROOFS. What a step does when the host's next move is known, and what any step leaves of STATUS: the five fields after
each command (spec/60_exceptions.md R112, spec/40_control.md R68), and which moves change them (spec/10_state.md R17 to
R21). -/

namespace Sys2Proof.Proofs

open Sys2Proof Sys2Proof.Machine Sys2Proof.Safety Sys2Proof.Laws

/-! ### A step whose move is known -/

/-- A mapped write to a register other than CMD writes that register (spec/20_memory.md R46). -/
theorem step_of_nextWrite {s : State} {r : RegName} {v : Word} (hr : r ≠ .CMD) (h : NextWrite s r v) :
    step s = .next (advance (writeReg r v s)) := by
  rw [NextWrite] at h
  simp only [step, fetchMove, h, applyMove, selectReg_regOffset]
  cases r with
  | CMD => exact absurd rfl hr
  | _ => rfl

/-- A write to CMD runs the command of its word (spec/20_memory.md R47). -/
theorem step_of_nextCommand {s : State} {w : Word} (h : NextCommand s w) : step s = thenAdvance (runCommand w s) := by
  rw [NextCommand] at h
  simp only [step, fetchMove, h, applyMove, selectReg_base]

/-- A command ends with its result code and its writes (spec/60_exceptions.md R112). -/
theorem exec_eq_next_complete (i : Instr) (s : State) : exec i s = .next (complete (resultOf i s) (writesOf i s) s) :=
  exec_eq_finish i s

/-- A write of a command's word to CMD completes that command. -/
theorem step_of_nextCommand_encode {s : State} {i : Instr} (h : NextCommand s (encode i)) :
    step s = .next (advance (complete (resultOf i s) (writesOf i s) s)) := by
  rw [step_of_nextCommand h, runCommand, decode_encode]
  exact congrArg thenAdvance (exec_eq_next_complete i s)

/-- No step changes the parameters (spec/10_state.md R36). -/
theorem step_params {s t : State} (h : step s = .next t) : t.params = s.params := by
  rcases step_cases h with ⟨-, rfl⟩ | ⟨-, rfl⟩ | ⟨r, -, rfl⟩ | ⟨r, v, -, -, rfl⟩ | ⟨v, e, -, -, rfl⟩ |
    ⟨v, i, u, -, -, hu, rfl⟩
  case inr.inr.inr.inr.inr => rw [advance_params, exec_params hu]
  all_goals simp

/-! ### STATUS after a command -/

/-- The five fields of STATUS after a command (spec/40_control.md R68). -/
def statusAfter (i : Instr) (s : State) : Status where
  err := resultBits (resultOf i s)
  sticky := decide (i ≠ .statClr) && stickyAfter (resultOf i s) s.status.sticky
  matched :=
    match i with
    | .crcCheck h => decide (h = s.crc.value)
    | _ => s.status.matched
  verKnown :=
    match i with
    | .shUnpack => verKnownFlag s.params (s.sh.b0.extractLsb' 4 4)
    | _ => s.status.verKnown
  tsValid :=
    match i with
    | .tsConvert => s.status.tsValid || decide (resultOf i s = .ok)
    | .tsFromUnix => s.status.tsValid || decide (resultOf i s = .ok)
    | _ => s.status.tsValid

/-- A completion whose writes leave STATUS alone changes only ERR and STICKY. -/
theorem complete_status_of_keeps {code : ResultCode} {w : State → State} {s : State}
    (hw : (w s).status = s.status) : (complete code w s).status =
      { s.status with err := resultBits code, sticky := stickyAfter code s.status.sticky } := by
  cases code <;> simp [hw]

/-- A completion whose writes set TS_VALID sets it exactly on OK. -/
theorem complete_status_of_commit {code : ResultCode} {w : State → State} {s : State}
    (hcode : code = .ok ∨ code = .range) (hw : code = .ok → (w s).status = { s.status with tsValid := true }) :
    (complete code w s).status = { s.status with err := resultBits code, sticky := stickyAfter code s.status.sticky,
                                                 tsValid := s.status.tsValid || decide (code = .ok) } := by
  rcases hcode with rfl | rfl
  · simp [hw]
  · simp

/-- TS_CONVERT ends with OK or RANGE. -/
theorem convertResult_cases (m : Word) : convertResult m = .ok ∨ convertResult m = .range := by
  unfold convertResult
  split
  · exact .inr rfl
  · exact .inl rfl

/-- TS_FROM_UNIX ends with OK or RANGE. -/
theorem resultOf_tsFromUnix_cases (s : State) : resultOf .tsFromUnix s = .ok ∨ resultOf .tsFromUnix s = .range := by
  simp only [resultOf]
  split
  · exact .inr rfl
  · exact .inl rfl

/-- A TS_FROM_UNIX that ends with OK commits a timestamp. -/
theorem writesOf_tsFromUnix_of_ok {s : State} (h : resultOf .tsFromUnix s = .ok) :
    ∃ d m, writesOf .tsFromUnix s = commitTimestamp d m := by
  cases hc : cdsFromUnix (unixInSeconds s) (unixInNanos s) with
  | none => simp [resultOf, hc] at h
  | some dm => exact ⟨dm.1, dm.2, by simp only [writesOf, hc]⟩

/-- `statusAfter` is what the command leaves in STATUS. -/
theorem complete_status (i : Instr) (s : State) :
    (complete (resultOf i s) (writesOf i s) s).status = statusAfter i s := by
  cases i with
  | statClr => rfl
  | crcCheck h =>
    by_cases hm : h = s.crc.value
    · simp [resultOf, writesOf, statusAfter, checkResult, matchFlag, hm]
    · simp [resultOf, writesOf, statusAfter, checkResult, matchFlag, hm]
  | shUnpack => rfl
  | tsConvert => exact complete_status_of_commit (convertResult_cases _) fun _ => rfl
  | tsFromUnix =>
    refine complete_status_of_commit (resultOf_tsFromUnix_cases s) fun hok => ?_
    obtain ⟨d, m, hw⟩ := writesOf_tsFromUnix_of_ok hok
    rw [hw, commitTimestamp_status]
  | _ => exact complete_status_of_keeps rfl

/-! ### Each field of STATUS after a command -/

theorem resultOf_eq_ok_of_err {i : Instr} {s : State} (h : (statusAfter i s).err = 0#4) : resultOf i s = .ok :=
  (resultBits_eq_zero_iff _).mp h

/-- ERR never takes a reserved code (R17, R109). -/
theorem statusAfter_err_le (i : Instr) (s : State) : (statusAfter i s).err.toNat ≤ 5 := resultBits_le _

/-- A command that ends with an error sets STICKY (R18). -/
theorem statusAfter_sticky_of_err {i : Instr} {s : State} (h : (statusAfter i s).err ≠ 0#4) :
    (statusAfter i s).sticky = true := by
  have hcode : resultOf i s ≠ .ok := fun hok => h ((resultBits_eq_zero_iff _).mpr hok)
  have hi : i ≠ .statClr := by
    rintro rfl
    exact hcode rfl
  simp [statusAfter, hi, stickyAfter_error hcode]

/-- A command other than STAT_CLR that ends with OK keeps STICKY (R18). -/
theorem statusAfter_sticky_of_ok {i : Instr} {s : State} (h : (statusAfter i s).err = 0#4) (hi : i ≠ .statClr) :
    (statusAfter i s).sticky = s.status.sticky := by
  simp [statusAfter, hi, resultOf_eq_ok_of_err h]

/-- No command but STAT_CLR clears STICKY (R18). -/
theorem statusAfter_sticky_of_set {i : Instr} {s : State} (hs : s.status.sticky = true) (hi : i ≠ .statClr) :
    (statusAfter i s).sticky = true := by
  simp [statusAfter, hi, hs, stickyAfter_eq]

/-- Only CRC_CHECK writes MATCH (R19). -/
theorem statusAfter_matched_changed {i : Instr} {s : State} (h : (statusAfter i s).matched ≠ s.status.matched) :
    ∃ x, i = .crcCheck x := by
  cases i with
  | crcCheck x => exact ⟨x, rfl⟩
  | _ => exact absurd rfl h

/-- Only SH_UNPACK writes VER_KNOWN (R20). -/
theorem statusAfter_verKnown_changed {i : Instr} {s : State} (h : (statusAfter i s).verKnown ≠ s.status.verKnown) :
    i = .shUnpack := by
  cases i with
  | shUnpack => rfl
  | _ => exact absurd rfl h

/-- Only TS_CONVERT and TS_FROM_UNIX write TS_VALID (R21). -/
theorem statusAfter_tsValid_changed {i : Instr} {s : State} (h : (statusAfter i s).tsValid ≠ s.status.tsValid) :
    i = .tsConvert ∨ i = .tsFromUnix := by
  cases i with
  | tsConvert => exact .inl rfl
  | tsFromUnix => exact .inr rfl
  | _ => exact absurd rfl h

/-- A successful commit sets TS_VALID (R21). -/
theorem statusAfter_tsValid_of_commit {i : Instr} {s : State} (hi : i = .tsConvert ∨ i = .tsFromUnix)
    (h : (statusAfter i s).err = 0#4) : (statusAfter i s).tsValid = true := by
  have hok := resultOf_eq_ok_of_err h
  rcases hi with rfl | rfl <;> simp [statusAfter, hok]

/-- No command clears TS_VALID (R21). -/
theorem statusAfter_tsValid_of_set {i : Instr} {s : State} (hs : s.status.tsValid = true) :
    (statusAfter i s).tsValid = true := by
  cases i <;> simp [statusAfter, hs]

/-! ### STATUS over a step -/

/-- STATUS after an illegal command word (spec/40_control.md R68). -/
def statusIllegal (s : State) : Status := { s.status with err := 1, sticky := true }

/-- STATUS after a write of a command's word to CMD. -/
theorem step_status_of_encode {s t : State} {i : Instr} (h : step s = .next t) (hc : NextCommand s (encode i)) :
    t.status = statusAfter i s := by
  rw [step_of_nextCommand_encode hc] at h
  cases h
  exact complete_status i s

/-- Everything a write to CMD can do to STATUS. -/
theorem step_status_of_nextCommand {s t : State} {w : Word} (h : step s = .next t) (hc : NextCommand s w) :
    t.status = statusIllegal s ∨ ∃ i, w = encode i ∧ t.status = statusAfter i s := by
  rcases runCommand_cases w s with ⟨e, -, hrun⟩ | ⟨i, hd, -⟩
  · rw [step_of_nextCommand hc, hrun] at h
    cases h
    exact .inl rfl
  · obtain rfl := eq_encode_of_decode hd
    exact .inr ⟨i, rfl, step_status_of_encode h hc⟩

/-- Everything a step can do to STATUS: leave it, reset it, or end a command. -/
theorem step_status_cases {s t : State} (h : step s = .next t) :
    t.status = s.status ∨ (NextReset s ∧ t.status = ⟨0, false, false, false, false⟩) ∨
    (∃ w, NextCommand s w ∧ t.status = statusIllegal s) ∨
    ∃ i, NextCommand s (encode i) ∧ t.status = statusAfter i s := by
  rcases step_cases h with ⟨-, rfl⟩ | ⟨hm, rfl⟩ | ⟨r, -, rfl⟩ | ⟨r, v, -, -, rfl⟩ | ⟨v, e, hm, -, rfl⟩ |
    ⟨v, i, -, hm, hd, -⟩
  · exact .inl rfl
  · exact .inr (.inl ⟨hm, rfl⟩)
  · exact .inl rfl
  · exact .inl (writeReg_status s r v)
  · exact .inr (.inr (.inl ⟨v, hm, rfl⟩))
  · obtain rfl := eq_encode_of_decode hd
    exact .inr (.inr (.inr ⟨i, hm, step_status_of_encode h hm⟩))

/-- A field of STATUS other than ERR and STICKY changes only on a reset or by a command that writes it. -/
theorem step_status_changed {α : Type} (g : Status → α) (hg : ∀ s, g (statusIllegal s) = g s.status) {s t : State}
    (h : step s = .next t) (hne : g t.status ≠ g s.status) :
    NextReset s ∨ ∃ i, NextCommand s (encode i) ∧ g (statusAfter i s) ≠ g s.status := by
  rcases step_status_cases h with heq | ⟨hr, -⟩ | ⟨w, -, heq⟩ | ⟨i, hc, heq⟩
  · exact absurd (congrArg g heq) hne
  · exact .inl hr
  · exact absurd ((congrArg g heq).trans (hg s)) hne
  · exact .inr ⟨i, hc, heq ▸ hne⟩

/-- ERR changes only on a reset or a write to CMD (R17). -/
theorem step_err_changed {s t : State} (h : step s = .next t) (hne : t.status.err ≠ s.status.err) :
    NextReset s ∨ ∃ w, NextCommand s w := by
  rcases step_status_cases h with heq | ⟨hr, -⟩ | ⟨w, hc, -⟩ | ⟨i, hc, -⟩
  · exact absurd (congrArg Status.err heq) hne
  · exact .inl hr
  · exact .inr ⟨w, hc⟩
  · exact .inr ⟨_, hc⟩

/-- STICKY is cleared only by STAT_CLR and reset (R18). -/
theorem step_sticky_cleared {s t : State} (h : step s = .next t) (hs : s.status.sticky = true)
    (ht : t.status.sticky = false) : NextReset s ∨ NextCommand s (encode .statClr) := by
  rcases step_status_cases h with heq | ⟨hr, -⟩ | ⟨w, -, heq⟩ | ⟨i, hc, heq⟩
  · rw [heq, hs] at ht
    cases ht
  · exact .inl hr
  · rw [heq] at ht
    cases ht
  · by_cases hi : i = .statClr
    · exact .inr (hi ▸ hc)
    · rw [heq, statusAfter_sticky_of_set hs hi] at ht
      cases ht

/-- The result code of a write to CMD against STICKY (R17, R18). -/
theorem step_command_err_sticky {s t : State} {w : Word} (h : step s = .next t) (hc : NextCommand s w) :
    t.status.err.toNat ≤ 5 ∧ (t.status.err ≠ 0#4 → t.status.sticky = true) ∧
    (t.status.err = 0#4 → w ≠ encode .statClr → t.status.sticky = s.status.sticky) := by
  rcases step_status_of_nextCommand h hc with heq | ⟨i, rfl, heq⟩ <;> rw [heq]
  · exact ⟨resultBits_le .illegalCmd, fun _ => rfl, fun herr => absurd herr (by simp [statusIllegal])⟩
  · exact ⟨statusAfter_err_le i s, statusAfter_sticky_of_err,
      fun herr hw => statusAfter_sticky_of_ok herr fun hi => hw (congrArg encode hi)⟩

/-- MATCH changes only on a reset or by CRC_CHECK (R19). -/
theorem step_matched_changed {s t : State} (h : step s = .next t) (hne : t.status.matched ≠ s.status.matched) :
    NextReset s ∨ ∃ x, NextCommand s (encode (.crcCheck x)) := by
  refine (step_status_changed Status.matched (fun _ => rfl) h hne).imp_right ?_
  rintro ⟨i, hc, hi⟩
  obtain ⟨x, rfl⟩ := statusAfter_matched_changed hi
  exact ⟨x, hc⟩

/-- VER_KNOWN changes only on a reset or by SH_UNPACK (R20). -/
theorem step_verKnown_changed {s t : State} (h : step s = .next t) (hne : t.status.verKnown ≠ s.status.verKnown) :
    NextReset s ∨ NextCommand s (encode .shUnpack) := by
  refine (step_status_changed Status.verKnown (fun _ => rfl) h hne).imp_right ?_
  rintro ⟨i, hc, hi⟩
  obtain rfl := statusAfter_verKnown_changed hi
  exact hc

/-- After SH_UNPACK, VER_KNOWN says whether the version it stored is a known one (R20). -/
theorem step_shUnpack_verKnown {s t : State} (h : step s = .next t) (hc : NextCommand s (encode .shUnpack)) :
    t.status.verKnown = s.params.known.getLsbD t.sh.version.toNat := by
  rw [step_of_nextCommand_encode hc] at h
  cases h
  rfl

/-- TS_VALID is cleared only by reset (R21). -/
theorem step_tsValid_cleared {s t : State} (h : step s = .next t) (hs : s.status.tsValid = true)
    (ht : t.status.tsValid = false) : NextReset s := by
  have hne : t.status.tsValid ≠ s.status.tsValid := by simp [hs, ht]
  rcases step_status_changed Status.tsValid (fun _ => rfl) h hne with hr | ⟨i, -, hi⟩
  · exact hr
  · exact absurd ((statusAfter_tsValid_of_set hs).trans hs.symm) hi

/-- TS_VALID is set only by a commit (R21). -/
theorem step_tsValid_set {s t : State} (h : step s = .next t) (hs : s.status.tsValid = false)
    (ht : t.status.tsValid = true) : NextCommand s (encode .tsConvert) ∨ NextCommand s (encode .tsFromUnix) := by
  rcases step_status_cases h with heq | ⟨-, heq⟩ | ⟨w, -, heq⟩ | ⟨i, hc, heq⟩
  · simp [heq, hs] at ht
  · simp [heq] at ht
  · simp [heq, statusIllegal, hs] at ht
  · have hi : (statusAfter i s).tsValid ≠ s.status.tsValid := by simp [← heq, hs, ht]
    rcases statusAfter_tsValid_changed hi with rfl | rfl
    · exact .inl hc
    · exact .inr hc

/-- A TS_CONVERT or TS_FROM_UNIX that ends with OK sets TS_VALID (R21). -/
theorem step_tsValid_of_commit {s t : State} {i : Instr} (h : step s = .next t) (hi : i = .tsConvert ∨ i = .tsFromUnix)
    (hc : NextCommand s (encode i)) (herr : t.status.err = 0#4) : t.status.tsValid = true := by
  have hst := step_status_of_encode h hc
  rw [hst] at herr ⊢
  exact statusAfter_tsValid_of_commit hi herr

/-! ### ERR is no operand -/

/-- A state with another result code in ERR. -/
def withErr (e : Nibble) (s : State) : State := { s with status := { s.status with err := e } }

/-- The old ERR does not reach a command's result code. -/
theorem resultOf_withErr (i : Instr) (e : Nibble) (s : State) : resultOf i (withErr e s) = resultOf i s := by
  cases i <;> rfl

/-- The old ERR does not reach a command's writes. -/
theorem writesOf_withErr (i : Instr) (e : Nibble) (s : State) : writesOf i (withErr e s) = writesOf i s := by
  cases i <;> rfl

/-- A command's writes leave ERR as they find it. -/
theorem writesOf_commutes_withErr (i : Instr) (e : Nibble) (s u : State) :
    writesOf i s (withErr e u) = withErr e (writesOf i s u) := by
  cases i with
  | tsFromUnix =>
    unfold writesOf
    split <;> rfl
  | _ => rfl

/-- A completion overwrites ERR, whatever it held (R17, R112). -/
theorem complete_withErr {code : ResultCode} {w : State → State} {e : Nibble} {s : State}
    (hw : w (withErr e s) = withErr e (w s)) : complete code w (withErr e s) = complete code w s := by
  cases code with
  | ok => rw [complete_ok, complete_ok, hw]; rfl
  | checksumMismatch => rw [complete_mismatch, complete_mismatch, hw]; rfl
  | _ => rfl

/-- A write to CMD leaves the same state whatever ERR held (R17). -/
theorem runCommand_withErr (w : Word) (e : Nibble) (s : State) : runCommand w (withErr e s) = runCommand w s := by
  unfold runCommand
  cases decode w with
  | error x => rfl
  | ok i =>
    simp only [exec_eq_next_complete, resultOf_withErr, writesOf_withErr,
      complete_withErr (writesOf_commutes_withErr i e s s)]

end Sys2Proof.Proofs

/-! PROOFS. The statements of spec/10_state.md: reset, reserved bits, CONFIG and the fields of STATUS. -/

namespace Sys2Proof.Proofs

open Sys2Proof Sys2Proof.Machine Sys2Proof.Safety Sys2Proof.Laws

/-- The parameters reach no register but CONFIG. -/
theorem readReg_resetWith {r : RegName} (hr : r ≠ .CONFIG) (p : Params) :
    readReg r (State.resetWith p) = readReg r State.reset := by
  cases r with
  | CONFIG => exact absurd rfl hr
  | _ => rfl

/-- After reset every register but CRC and CONFIG reads 0 (R39). -/
theorem readReg_reset_eq_zero {r : RegName} (hcrc : r ≠ .CRC) (hconfig : r ≠ .CONFIG) (p : Params) :
    readReg r (State.resetWith p) = 0#32 := by
  rw [readReg_resetWith hconfig]
  cases r with
  | CRC => exact absurd rfl hcrc
  | CONFIG => exact absurd rfl hconfig
  | _ => decide

/-- After reset CRC reads its reset value (R39). -/
theorem readReg_reset_crc (p : Params) : readReg .CRC (State.resetWith p) = 0x0000FFFF#32 := by
  rw [readReg_resetWith (by decide)]
  decide

/-- Settles O1: every stored field of the reset state is a literal, and the registers but CRC and CONFIG join zeros. -/
theorem resetLeavesResetColumn : Obligations.ResetLeavesResetColumn := by
  rintro p s rfl
  refine ⟨rfl, rfl, rfl, rfl, rfl, rfl, rfl, rfl, rfl, rfl, rfl, rfl, rfl, rfl, rfl, rfl, rfl, rfl, rfl, rfl, rfl, rfl,
    rfl, rfl, rfl, rfl, fun r => ?_⟩
  cases r with
  | CRC => exact readReg_reset_crc p
  | CONFIG => rfl
  | _ => exact readReg_reset_eq_zero (by decide) (by decide) p

/-- At reset ERR is OK. -/
theorem resultCodeInv_resetWith (p : Params) : ResultCodeInv (State.resetWith p) :=
  ⟨Nat.zero_le 5, fun h => absurd rfl h⟩

/-- At reset no timestamp is committed. -/
theorem timestampInv_resetWith (p : Params) : TimestampInv (State.resetWith p) := rfl

/-- At reset the timestamp frame is 0 under both layouts. -/
theorem frameInv_resetWith (p : Params) : FrameInv (State.resetWith p) := by
  cases h : p.tsLayout <;> simp [FrameInv, h]

/-- Settles O52, one part of the invariant at a time. -/
theorem resetSatisfiesBlockInvariant : Obligations.ResetSatisfiesBlockInvariant := fun p =>
  ⟨resultCodeInv_resetWith p, timestampInv_resetWith p, frameInv_resetWith p⟩

/-- Settles O5: a register reads 0 outside its stored bits, and a write's step is `writeReg`, which drops them. -/
theorem reservedBitsReadZeroIgnoreWrites : Obligations.ReservedBitsReadZeroIgnoreWrites := by
  refine ⟨fun s r => readReg_and_reserved r s, fun s r v hr hw => ?_, by decide⟩
  rw [step_of_nextWrite hr hw, writeReg_and_storedBits, advance, writeReg_pc]

/-- Settles O8: CONFIG is a word of the parameters alone, and no step changes the parameters. -/
theorem configIsConstant : Obligations.ConfigIsConstant := by
  refine ⟨?_, rfl, fun s t h => ?_⟩
  · rintro s _ rfl
    refine ⟨configWord_pusVersion _, configWord_layout _, configWord_reserved _, configWord_pfield _, fun v hv => ?_⟩
    have hbit : ((configWord s.params).extractLsb' 16 16).getLsbD v = (configWord s.params).getLsbD (16 + v) := by
      simp [hv]
    rw [readReg, ← hbit, configWord_known]
  · have hp := step_params h
    exact ⟨congrArg configWord hp, hp⟩

/-- Settles O47: STATUS holds its fields at their bits, and each field's rule over a step follows from what a step can do to
STATUS (`step_status_cases`). -/
theorem statusFieldsFollowTheirRules : Obligations.StatusFieldsFollowTheirRules := by
  refine ⟨?layout, readReg_reset_eq_zero (by decide) (by decide), ?hostWrite, fun s t => step_err_changed,
    fun w s e => runCommand_withErr w e s, fun s t w => step_command_err_sticky, ?control,
    fun s t => step_sticky_cleared, fun s t => step_matched_changed, ?crcCheck,
    fun s t => step_verKnown_changed, fun s t => step_shUnpack_verKnown, fun s t => step_tsValid_cleared, ?commit,
    fun s t => step_tsValid_set, ?noTimestamp⟩
  case layout =>
    rintro s _ rfl
    exact ⟨statusWord_err _, statusWord_sticky _, statusWord_matched _, statusWord_verKnown _, statusWord_tsValid _⟩
  case hostWrite => exact fun s v h => step_of_nextWrite (by decide) h
  case control =>
    rintro s t h (hc | hc)
    · have hnop : NextCommand s (encode .nop) := hc
      rw [step_status_of_encode h hnop]
      rfl
    · have hclr : NextCommand s (encode .statClr) := hc
      rw [step_status_of_encode h hclr]
      rfl
  case crcCheck => exact fun s t x h hc => congrArg Status.matched (step_status_of_encode h hc)
  case commit =>
    rintro s t h (hc | hc)
    · exact step_tsValid_of_commit h (.inl rfl) hc
    · exact step_tsValid_of_commit h (.inr rfl) hc
  case noTimestamp =>
    intro s hinv hvalid
    simpa [TimestampInv, hvalid] using hinv

end Sys2Proof.Proofs

/-! PROOFS. What the bus sees of a register (spec/20_memory.md R45, R46, R55): a read shows each stored field at its bits, a
write sets one register's stored fields and no other's, and reading undoes writing on the stored bits. -/

namespace Sys2Proof.Proofs

open Sys2Proof Sys2Proof.Machine Sys2Proof.Safety Sys2Proof.Laws

/-! ### A read shows each field at its bits -/

section ReadFields

variable (s : State)

@[simp] theorem readReg_crc_value : (readReg .CRC s).extractLsb' 0 16 = s.crc.value :=
  BitVec.extractLsb'_append_eq_right

@[simp] theorem readReg_chkInfo_expected : (readReg .CHK_INFO s).extractLsb' 16 16 = s.crc.expected :=
  BitVec.extractLsb'_append_eq_left

@[simp] theorem readReg_chkInfo_found : (readReg .CHK_INFO s).extractLsb' 0 16 = s.crc.found :=
  BitVec.extractLsb'_append_eq_right

@[simp] theorem readReg_shFields_ack : (readReg .SH_FIELDS s).extractLsb' 0 8 = s.sh.ack :=
  BitVec.extractLsb'_append_eq_right

@[simp] theorem readReg_shFields_version : (readReg .SH_FIELDS s).extractLsb' 8 4 = s.sh.version := by
  rw [readReg, BitVec.extractLsb'_append_eq_of_le (by decide)]
  exact BitVec.extractLsb'_append_eq_right

@[simp] theorem readReg_shFields_service : (readReg .SH_FIELDS s).extractLsb' 16 8 = s.sh.service := by
  rw [readReg]
  iterate 3 rw [BitVec.extractLsb'_append_eq_of_le (by decide)]
  exact BitVec.extractLsb'_append_eq_right

@[simp] theorem readReg_shFields_subservice : (readReg .SH_FIELDS s).extractLsb' 24 8 = s.sh.subservice := by
  rw [readReg]
  iterate 3 rw [BitVec.extractLsb'_append_eq_of_le (by decide)]
  exact BitVec.extractLsb'_append_eq_left

@[simp] theorem readReg_shSrcid_sourceId : (readReg .SH_SRCID s).extractLsb' 0 16 = s.sh.sourceId :=
  BitVec.extractLsb'_append_eq_right

@[simp] theorem readReg_shFrame0_b0 : (readReg .SH_FRAME0 s).extractLsb' 24 8 = s.sh.b0 := by
  rw [readReg, frameWord]
  iterate 2 rw [BitVec.extractLsb'_append_eq_of_le (by decide)]
  exact BitVec.extractLsb'_append_eq_left

@[simp] theorem readReg_shFrame0_b1 : (readReg .SH_FRAME0 s).extractLsb' 16 8 = s.sh.b1 := by
  rw [readReg, frameWord]
  iterate 2 rw [BitVec.extractLsb'_append_eq_of_le (by decide)]
  exact BitVec.extractLsb'_append_eq_right

@[simp] theorem readReg_shFrame0_b2 : (readReg .SH_FRAME0 s).extractLsb' 8 8 = s.sh.b2 := by
  rw [readReg, frameWord, BitVec.extractLsb'_append_eq_of_le (by decide)]
  exact BitVec.extractLsb'_append_eq_right

@[simp] theorem readReg_shFrame0_b3 : (readReg .SH_FRAME0 s).extractLsb' 0 8 = s.sh.b3 :=
  BitVec.extractLsb'_append_eq_right

@[simp] theorem readReg_shFrame1_b4 : (readReg .SH_FRAME1 s).extractLsb' 24 8 = s.sh.b4 :=
  BitVec.extractLsb'_append_eq_left

@[simp] theorem readReg_tsDayIn_day : (readReg .TS_DAY_IN s).extractLsb' 0 16 = s.tsIn.day :=
  BitVec.extractLsb'_append_eq_right

@[simp] theorem readReg_tsvPday_pfield : (readReg .TSV_PDAY s).extractLsb' 24 8 = s.tsv.pfield := by
  rw [readReg, BitVec.extractLsb'_append_eq_of_le (by decide)]
  exact BitVec.extractLsb'_append_eq_left

@[simp] theorem readReg_tsvPday_day : (readReg .TSV_PDAY s).extractLsb' 0 16 = s.tsv.day :=
  BitVec.extractLsb'_append_eq_right

@[simp] theorem readReg_calDate_year : (readReg .CAL_DATE s).extractLsb' 16 16 = s.tsv.year := by
  rw [readReg, BitVec.extractLsb'_append_eq_of_le (by decide)]
  exact BitVec.extractLsb'_append_eq_left

@[simp] theorem readReg_calDate_month : (readReg .CAL_DATE s).extractLsb' 8 8 = s.tsv.month := by
  rw [readReg, BitVec.extractLsb'_append_eq_of_le (by decide)]
  exact BitVec.extractLsb'_append_eq_right

@[simp] theorem readReg_calDate_mday : (readReg .CAL_DATE s).extractLsb' 0 8 = s.tsv.mday :=
  BitVec.extractLsb'_append_eq_right

@[simp] theorem readReg_calTime_hour : (readReg .CAL_TIME s).extractLsb' 16 8 = s.tsv.hour := by
  rw [readReg]
  iterate 2 rw [BitVec.extractLsb'_append_eq_of_le (by decide)]
  exact BitVec.extractLsb'_append_eq_right

@[simp] theorem readReg_calTime_minute : (readReg .CAL_TIME s).extractLsb' 8 8 = s.tsv.minute := by
  rw [readReg, BitVec.extractLsb'_append_eq_of_le (by decide)]
  exact BitVec.extractLsb'_append_eq_right

@[simp] theorem readReg_calTime_second : (readReg .CAL_TIME s).extractLsb' 0 8 = s.tsv.second :=
  BitVec.extractLsb'_append_eq_right

end ReadFields

/-! ### The host's side is in no register -/

@[simp] theorem readReg_advance (r : RegName) (s : State) : readReg r (advance s) = readReg r s := by
  cases r <;> rfl

@[simp] theorem readReg_recordRead (r : RegName) (v : Word) (s : State) :
    readReg r (recordRead v s) = readReg r s := by
  cases r <;> rfl

/-! ### Reading after writing, writing after reading -/

/-- A zero upper half over a word's lower half is the word under the lower half's mask. -/
theorem zero_append_lowerHalf (v : Word) : 0#16 ++ v.extractLsb' 0 16 = v &&& 0x0000FFFF#32 := by
  calc 0#16 ++ v.extractLsb' 0 16
      = (v.extractLsb' 16 16 ++ v.extractLsb' 0 16) &&& (0#16 ++ BitVec.allOnes 16) := by
        rw [BitVec.and_append, BitVec.and_zero, BitVec.and_allOnes]
    _ = v &&& 0x0000FFFF#32 := by
        rw [BitVec.extractLsb'_append_extractLsb'_eq_extractLsb' (by decide), BitVec.extractLsb'_eq_self]
        rfl

/-- A word's upper byte over zeros is the word under the upper byte's mask. -/
theorem upperByte_append_zero (v : Word) : v.extractLsb' 24 8 ++ 0#24 = v &&& 0xFF000000#32 := by
  calc v.extractLsb' 24 8 ++ 0#24
      = (v.extractLsb' 24 8 ++ v.extractLsb' 0 24) &&& (BitVec.allOnes 8 ++ 0#24) := by
        rw [BitVec.and_append, BitVec.and_zero, BitVec.and_allOnes]
    _ = v &&& 0xFF000000#32 := by
        rw [BitVec.extractLsb'_append_extractLsb'_eq_extractLsb' (by decide), BitVec.extractLsb'_eq_self]
        rfl

/-- The four lanes of a word, in wire order, are the word (spec/20_memory.md R52). -/
theorem frameWord_lanes (v : Word) : frameWord (lane v 0) (lane v 1) (lane v 2) (lane v 3) = v := by
  simp only [frameWord, lane]
  iterate 3 rw [BitVec.extractLsb'_append_extractLsb'_eq_extractLsb' (by decide)]
  exact BitVec.extractLsb'_eq_self

/-- The fields of SH_FIELDS around its zero reserved field are the word under the register's mask. -/
theorem shFields_append (v : Word) :
    v.extractLsb' 24 8 ++ v.extractLsb' 16 8 ++ 0#4 ++ v.extractLsb' 8 4 ++ v.extractLsb' 0 8 = v &&& 0xFFFF0FFF#32 := by
  calc v.extractLsb' 24 8 ++ v.extractLsb' 16 8 ++ 0#4 ++ v.extractLsb' 8 4 ++ v.extractLsb' 0 8
      = (v.extractLsb' 24 8 ++ v.extractLsb' 16 8 ++ v.extractLsb' 12 4 ++ v.extractLsb' 8 4 ++ v.extractLsb' 0 8) &&&
          (BitVec.allOnes 8 ++ BitVec.allOnes 8 ++ 0#4 ++ BitVec.allOnes 4 ++ BitVec.allOnes 8) := by
        simp only [BitVec.and_append, BitVec.and_zero, BitVec.and_allOnes]
    _ = v &&& 0xFFFF0FFF#32 := by
        iterate 4 rw [BitVec.extractLsb'_append_extractLsb'_eq_extractLsb' (by decide)]
        rw [BitVec.extractLsb'_eq_self]
        rfl

/-- An RW register reads back the stored bits of what was written to it (R46). -/
theorem readReg_writeReg_same {r : RegName} (hr : r ∈ rwRegisters) (v : Word) (s : State) :
    readReg r (writeReg r v s) = v &&& storedBits r := by
  cases r with
  | CRC | SH_SRCID | TS_DAY_IN => exact zero_append_lowerHalf v
  | SH_FIELDS => exact shFields_append v
  | SH_FRAME0 => exact (frameWord_lanes v).trans BitVec.and_allOnes.symm
  | SH_FRAME1 => exact upperByte_append_zero v
  | TS_MS_IN | UNIX_IN_LO | UNIX_IN_HI | UNIX_IN_NS => exact BitVec.and_allOnes.symm
  | _ => exact absurd hr (by decide)

/-- A write to one register is seen in no other (R46). Each RW register has stored fields of its own, so the read of
another one finds the fields it had. -/
theorem readReg_writeReg_of_ne {r r' : RegName} (hne : r' ≠ r) (v : Word) (s : State) :
    readReg r' (writeReg r v s) = readReg r' s := by
  cases r' with
  | CMD => rfl
  | STATUS | CHK_INFO | TSV_PDAY | TSV_MS | UNIX_LO | UNIX_HI | NANOS | CAL_DATE | CAL_TIME | TS_FRAME0 | TS_FRAME1
  | CONFIG => simp [readReg]
  | _ => cases r <;> first | contradiction | rfl

/-- Writing a register the value it reads changes nothing (R55): each field gets the bits it was shown at. -/
theorem writeReg_readReg (r : RegName) (s : State) : writeReg r (readReg r s) s = s := by
  cases r with
  | CRC | SH_FIELDS | SH_SRCID | SH_FRAME0 | SH_FRAME1 | TS_DAY_IN => simp [writeReg, lane]
  | _ => rfl

/-- The second of two equal writes to a register changes nothing (R55). -/
theorem writeReg_writeReg (r : RegName) (v : Word) (s : State) : writeReg r v (writeReg r v s) = writeReg r v s := by
  cases r <;> rfl

/-! ### The access column -/

theorem ne_cmd_of_mem_rwRegisters : ∀ r ∈ rwRegisters, r ≠ .CMD := by decide

theorem ne_cmd_of_mem_roRegisters : ∀ r ∈ roRegisters, r ≠ .CMD := by decide

/-- The registers that spec/20_memory.md R46 lists as RO are not RW in the register map. -/
theorem regAccess_ne_rw_of_mem_roRegisters : ∀ r ∈ roRegisters, regAccess r ≠ .RW := by decide

end Sys2Proof.Proofs

/-! PROOFS. What a read, a refused transaction and a CMD write do as a step (spec/20_memory.md R42, R45, R47). -/

namespace Sys2Proof.Proofs

open Sys2Proof Sys2Proof.Machine Sys2Proof.Safety Sys2Proof.Laws

/-! ### The transactions of the window -/

/-- An offset that R42 maps is a register's. -/
theorem exists_eq_regOffset {off : Nat} (hmod : off % 4 = 0) (hle : off ≤ 0x58) : ∃ r, off = regOffset r := by
  obtain ⟨r, hr⟩ := (regAt_isSome_iff off).mpr ⟨hmod, hle⟩
  exact ⟨r, regAt_eq_some_iff.mp hr⟩

/-- A transaction inside the window that R42 does not map is a bus error. -/
theorem selectReg_of_not_mapped {p : Params} {off size : Nat} (hoff : off < 256)
    (h : ¬ (off % 4 = 0 ∧ off ≤ 0x58 ∧ size = 4)) : selectReg p (p.base + off) size = .error .busError := by
  rcases selectReg_cases p (p.base + off) size with ⟨r, -, hsize, haddr⟩ | ⟨hsel, -⟩ | ⟨-, hout⟩
  · obtain ⟨hmod, hle⟩ := regOffset_range r
    exact absurd ⟨by omega, by omega, hsize⟩ h
  · exact hsel
  · omega

/-! ### Steps whose move is known -/

/-- A mapped read returns the register's value to the host and goes on (spec/20_memory.md R45). -/
theorem step_of_nextRead {s : State} {r : RegName} (h : NextRead s r) :
    step s = .next (advance (recordRead (readReg r s) s)) := by
  rw [NextRead] at h
  simp only [step, fetchMove, h, applyMove, selectReg_regOffset, thenAdvance]

/-- A read that reaches no register stops the run with the reason. -/
theorem step_of_read_error {s : State} {addr size : Nat} {f : Fault} (h : s.program[s.pc]? = some (.read addr size))
    (hsel : selectReg s.params addr size = .error f) : step s = .fault f := by
  simp only [step, fetchMove, h, applyMove, hsel, thenAdvance]

/-- A write that reaches no register stops the run with the reason. -/
theorem step_of_write_error {s : State} {addr size : Nat} {v : Word} {f : Fault}
    (h : s.program[s.pc]? = some (.write addr size v)) (hsel : selectReg s.params addr size = .error f) :
    step s = .fault f := by
  simp only [step, fetchMove, h, applyMove, hsel, thenAdvance]

/-- A word that decodes to a command runs it (spec/20_memory.md R47). -/
theorem runCommand_of_decode {w : Word} {i : Instr} (hd : decode w = .ok i) (s : State) : runCommand w s = exec i s := by
  rw [runCommand, hd]

/-- Every word written to CMD gives a next state (spec/60_exceptions.md R124). -/
theorem runCommand_next (w : Word) (s : State) : ∃ t, runCommand w s = .next t := by
  rcases runCommand_cases w s with ⟨e, -, hrun⟩ | ⟨i, -, hrun⟩
  · exact ⟨_, hrun⟩
  · exact ⟨_, hrun.trans (exec_eq_next_complete i s)⟩

/-- Every mapped write gives a next state. -/
theorem step_next_of_nextWrite {s : State} {r : RegName} {v : Word} (h : NextWrite s r v) : ∃ t, step s = .next t := by
  by_cases hr : r = .CMD
  · subst hr
    obtain ⟨t, hrun⟩ := runCommand_next v s
    exact ⟨advance t, (step_of_nextCommand h).trans (congrArg thenAdvance hrun)⟩
  · exact ⟨_, step_of_nextWrite hr h⟩

end Sys2Proof.Proofs

/-! PROOFS. The statements of spec/20_memory.md: mapped reads and writes, refused transactions, rewriting, and the CMD write. -/

namespace Sys2Proof.Proofs

open Sys2Proof Sys2Proof.Machine Sys2Proof.Safety Sys2Proof.Laws

/-- Settles O3: a read's step records `readReg`, which shows each stored field at its bits, and changes only the host's
side. -/
theorem mappedReadReturnsRegister : Obligations.MappedReadReturnsRegister := by
  refine ⟨fun s r => step_of_nextRead, fun s r => readReg_and_reserved r s, fun s r h => ?keeps, fun _ => rfl, ?status,
    readReg_crc_value, ?chkInfo, ?shFields, readReg_shSrcid_sourceId, ?shFrame0, readReg_shFrame1_b4,
    fun s => ⟨readReg_tsDayIn_day s, rfl, rfl, rfl, rfl⟩, ?tsvPday, fun _ => ⟨rfl, rfl, rfl, rfl⟩, ?calDate, ?calTime,
    fun _ => ⟨rfl, rfl⟩, ?config⟩
  case keeps => exact ⟨_, step_of_nextRead h, by simp⟩
  case status =>
    rintro s _ rfl
    exact ⟨statusWord_err _, statusWord_sticky _, statusWord_matched _, statusWord_verKnown _, statusWord_tsValid _⟩
  case config =>
    rintro s _ rfl
    exact ⟨configWord_pusVersion _, configWord_layout _, configWord_pfield _, configWord_known _⟩
  all_goals
    rintro s _ rfl
    simp

/-- Settles O4: the step of a mapped write is `writeReg`, or for CMD the command. -/
theorem mappedWriteEffect : Obligations.MappedWriteEffect := by
  refine ⟨fun s r v hr h => ?rw, fun s r v hr h => ?ro, fun s v => step_of_nextCommand⟩
  case rw =>
    refine ⟨_, step_of_nextWrite (ne_cmd_of_mem_rwRegisters r hr) h, ?_, fun r' hne => ?_, by simp⟩
    · rw [readReg_advance, readReg_writeReg_same hr]
    · rw [readReg_advance, readReg_writeReg_of_ne hne]
  case ro =>
    rw [step_of_nextWrite (ne_cmd_of_mem_roRegisters r hr) h, writeReg_of_not_rw (regAccess_ne_rw_of_mem_roRegisters r hr),
      advance]

/-- Settles O6: R42's conditions decide whether the transaction reaches a register, and only a reached one gives a next
state. -/
theorem refusedTransactionIsBusError : Obligations.RefusedTransactionIsBusError := by
  intro s off size v hoff
  constructor <;> intro hm <;> split
  case left.isTrue hmapped =>
    obtain ⟨hmod, hle, rfl⟩ := hmapped
    obtain ⟨r, rfl⟩ := exists_eq_regOffset hmod hle
    exact ⟨_, step_of_nextRead hm⟩
  case left.isFalse hrefused => exact step_of_read_error hm (selectReg_of_not_mapped hoff hrefused)
  case right.isTrue hmapped =>
    obtain ⟨hmod, hle, rfl⟩ := hmapped
    obtain ⟨r, rfl⟩ := exists_eq_regOffset hmod hle
    exact step_next_of_nextWrite hm
  case right.isFalse hrefused => exact step_of_write_error hm (selectReg_of_not_mapped hoff hrefused)

/-- Settles O9: a register's own value, or the same value again, sets its stored fields to what they are, and a read leaves
every register as it is for the next read. -/
theorem rewriteIsIdempotent : Obligations.RewriteIsIdempotent := by
  refine ⟨fun s r _ => writeReg_readReg r s, fun s r v => writeReg_writeReg r v s, fun s r t hread hstep hagain => ?_⟩
  rw [step_of_nextRead hread] at hstep
  cases hstep
  exact ⟨_, step_of_nextRead hagain, by simp, rfl⟩

/-- Settles O16: the CMD write decodes its word, and `exec`'s answer advances the host's index. -/
theorem stepRunsDecodedCommand : Obligations.StepRunsDecodedCommand := by
  intro s w i hc hd _
  rw [step_of_nextCommand hc, runCommand_of_decode hd]
  cases exec i s <;> rfl

end Sys2Proof.Proofs

/-! PROOFS. The opcode map read by the decoder and by match and mask (spec/30_encoding.md R57, R60, R61): which opcodes have
which format, which words are illegal and why, and which words a row of the map selects. -/

namespace Sys2Proof.Proofs

open Sys2Proof Sys2Proof.Safety Sys2Proof.Laws

/-! ### Fields as numbers -/

theorem opField_toNat (w : Word) : (opField w).toNat = w.toNat % 256 := by
  simp [opField, BitVec.extractLsb'_toNat]

theorem bField_toNat (w : Word) : (bField w).toNat = w.toNat / 256 % 256 := by
  simp [bField, BitVec.extractLsb'_toNat, Nat.shiftRight_eq_div_pow]

theorem hField_toNat (w : Word) : (hField w).toNat = w.toNat / 65536 := by
  have hw : w.toNat < 2 ^ 32 := w.isLt
  rw [hField, BitVec.extractLsb'_toNat, Nat.shiftRight_eq_div_pow]
  exact Nat.mod_eq_of_lt (by omega)

theorem bField_eq_zero_iff (w : Word) : bField w = 0#8 ↔ w.toNat / 256 % 256 = 0 := by
  rw [← bField_toNat]
  exact BitVec.toNat_inj.symm

theorem hField_eq_zero_iff (w : Word) : hField w = 0#16 ↔ w.toNat / 65536 = 0 := by
  rw [← hField_toNat]
  exact BitVec.toNat_inj.symm

/-! ### Opcodes and their formats -/

/-- No command's immediates are out of range: they have their fields' widths (R58, R59). -/
theorem instr_wellFormed (i : Instr) : i.wellFormed = true := by
  cases i with
  | crcByte b => exact decide_eq_true (Nat.le_of_lt_succ b.isLt)
  | crcHalf h | crcCheck h => exact decide_eq_true (Nat.le_of_lt_succ h.isLt)
  | _ => rfl

/-- The opcodes of a format (R57, R60). -/
def formatOpcodes : Format → List Nat
  | .f0 => f0Opcodes
  | .fb => [0x11]
  | .fh => [0x12, 0x13]

/-- The opcode map has a row of format `f` for exactly the opcodes of `f`. -/
theorem opcodeLookup_eq_some_iff (f : Format) (op b : Byte) (h : Half) :
    (∃ i, opcodeLookup op b h = some (f, i)) ↔ op.toNat ∈ formatOpcodes f := by
  unfold opcodeLookup
  split
  case h_12 => cases f <;> simp_all [formatOpcodes, f0Opcodes]
  all_goals
    rename_i hop
    rw [hop]
    cases f <;> simp [formatOpcodes, f0Opcodes]

/-- The opcode map has no row for exactly the opcodes in the ranges of R61. -/
theorem opcodeLookup_eq_none_iff (op b : Byte) (h : Half) : opcodeLookup op b h = none ↔ unassignedOp op.toNat = true := by
  unfold opcodeLookup
  split
  case h_12 =>
    have hlt := op.isLt
    simp only [unassignedOp, Bool.or_eq_true, Bool.and_eq_true, decide_eq_true_eq, true_iff]
    simp only [imp_false] at *
    omega
  all_goals
    rename_i hop
    simp [hop, unassignedOp]

/-- Of the 256 opcodes all but the map's eleven are unassigned (R61). -/
theorem count_unassignedOp : ((List.range 256).filter unassignedOp).length = 245 := by decide +kernel

/-! ### Illegal words -/

theorem decode_unassigned_iff_lookup (w : Word) :
    decode w = .error .unassignedOpcode ↔ opcodeLookup (opField w) (bField w) (hField w) = none := by
  unfold decode
  split
  · simp_all
  · split <;> simp_all

theorem decode_mustBeZero_iff_lookup (w : Word) :
    decode w = .error .mustBeZero ↔
      ∃ f, (∃ i, opcodeLookup (opField w) (bField w) (hField w) = some (f, i)) ∧
        formatOk f (bField w) (hField w) = false := by
  unfold decode
  split
  · simp_all
  · split <;> simp_all

/-- A word's opcode is unassigned exactly in the ranges of R61 (a). -/
theorem decode_unassigned_iff (w : Word) :
    decode w = .error .unassignedOpcode ↔ unassignedOp (w.toNat % 256) = true := by
  rw [decode_unassigned_iff_lookup, opcodeLookup_eq_none_iff, opField_toNat]

/-- A word breaks must-be-zero exactly when its opcode is one of a format's and a field of that format is not zero
(R61 (b)). -/
theorem decode_mustBeZero_iff (w : Word) :
    decode w = .error .mustBeZero ↔
      ∃ f, w.toNat % 256 ∈ formatOpcodes f ∧ formatOk f (bField w) (hField w) = false := by
  simp only [decode_mustBeZero_iff_lookup, opcodeLookup_eq_some_iff, opField_toNat]

theorem exists_format_iff (P : Format → Prop) : (∃ f, P f) ↔ P .f0 ∨ P .fb ∨ P .fh := by
  constructor
  · rintro ⟨f, hf⟩
    cases f with
    | f0 => exact .inl hf
    | fb => exact .inr (.inl hf)
    | fh => exact .inr (.inr hf)
  · rintro (hf | hf | hf) <;> exact ⟨_, hf⟩

theorem formatOk_f0_eq_false_iff (w : Word) :
    formatOk .f0 (bField w) (hField w) = false ↔ ¬ (w.toNat / 256 % 256 = 0 ∧ w.toNat / 65536 = 0) := by
  rw [← bField_eq_zero_iff, ← hField_eq_zero_iff, ← Bool.not_eq_true]
  simp [formatOk]

theorem formatOk_fb_eq_false_iff (w : Word) : formatOk .fb (bField w) (hField w) = false ↔ w.toNat / 65536 ≠ 0 := by
  rw [Ne, ← hField_eq_zero_iff, ← Bool.not_eq_true]
  simp [formatOk]

theorem formatOk_fh_eq_false_iff (w : Word) : formatOk .fh (bField w) (hField w) = false ↔ w.toNat / 256 % 256 ≠ 0 := by
  rw [Ne, ← bField_eq_zero_iff, ← Bool.not_eq_true]
  simp [formatOk]

/-! ### The rows of the map as match and mask -/

/-- Two rows that select one word agree on the bits that both look at. -/
theorem patterns_agree_of_selects {w : Word} {r₁ r₂ : OpcodeRow} (h₁ : r₁.selects w = true)
    (h₂ : r₂.selects w = true) :
    r₁.pattern &&& r₂.mask = r₂.pattern &&& r₁.mask := by
  rw [OpcodeRow.selects, beq_iff_eq] at h₁ h₂
  rw [← h₁, ← h₂, BitVec.and_assoc, BitVec.and_assoc, BitVec.and_comm r₁.mask]

/-- Different rows differ on a bit that both look at. -/
theorem eq_of_patterns_agree : ∀ r₁ ∈ opcodeMap, ∀ r₂ ∈ opcodeMap,
    r₁.pattern &&& r₂.mask = r₂.pattern &&& r₁.mask → r₁ = r₂ := by
  decide

/-- The bits that two words share are shared field by field. -/
theorem wordOf_and (h h' : Half) (b b' op op' : Byte) :
    wordOf h b op &&& wordOf h' b' op' = wordOf (h &&& h') (b &&& b') (op &&& op') :=
  BitVec.and_append.trans (congrArg (· ++ (op &&& op')) BitVec.and_append)

/-- A row whose pattern and mask are given by fields selects a word field by field. -/
theorem selects_wordOf_iff {name : String} {h mh : Half} {b mb op mop : Byte} {w : Word} :
    OpcodeRow.selects ⟨name, wordOf h b op, wordOf mh mb mop⟩ w = true ↔
      hField w &&& mh = h ∧ bField w &&& mb = b ∧ opField w &&& mop = op := by
  have hand : w &&& wordOf mh mb mop = wordOf (hField w &&& mh) (bField w &&& mb) (opField w &&& mop) := by
    rw [← wordOf_and, wordOf_fields]
  rw [OpcodeRow.selects, beq_iff_eq, hand]
  constructor
  · intro heq
    exact ⟨by simpa only [hField_wordOf] using congrArg hField heq,
      by simpa only [bField_wordOf] using congrArg bField heq, by simpa only [opField_wordOf] using congrArg opField heq⟩
  · rintro ⟨rfl, rfl, rfl⟩
    rfl

/-- A row of format F0 selects its pattern only. -/
theorem eq_pattern_of_selects_f0 {w p : Word} {name : String}
    (h : OpcodeRow.selects ⟨name, p, BitVec.allOnes 32⟩ w = true) : w = p := by
  rwa [OpcodeRow.selects, beq_iff_eq, BitVec.and_allOnes] at h

/-- A row of format FB leaves only IMM8 open. -/
theorem eq_wordOf_of_selects_fb {w : Word} {name : String} {op : Byte}
    (h : OpcodeRow.selects ⟨name, wordOf 0 0 op, wordOf (BitVec.allOnes 16) 0 (BitVec.allOnes 8)⟩ w = true) :
    w = wordOf 0 (bField w) op := by
  obtain ⟨hh, -, hop⟩ := selects_wordOf_iff.mp h
  rw [BitVec.and_allOnes] at hh hop
  rw [← hh, ← hop, wordOf_fields]

/-- A row of format FH leaves only IMM16 open. -/
theorem eq_wordOf_of_selects_fh {w : Word} {name : String} {op : Byte}
    (h : OpcodeRow.selects ⟨name, wordOf 0 0 op, wordOf 0 (BitVec.allOnes 8) (BitVec.allOnes 8)⟩ w = true) :
    w = wordOf (hField w) 0 op := by
  obtain ⟨-, hb, hop⟩ := selects_wordOf_iff.mp h
  rw [BitVec.and_allOnes] at hb hop
  rw [← hb, ← hop, wordOf_fields]

/-- A word that a row selects is the word of a command of the row's mnemonic. -/
theorem exists_eq_encode_of_selects {w : Word} {r : OpcodeRow} (hr : r ∈ opcodeMap) (h : r.selects w = true) :
    ∃ i, w = encode i ∧ i.mnemonic = r.mnemonic := by
  simp only [opcodeMap, List.mem_cons, List.not_mem_nil, or_false] at hr
  rcases hr with rfl | rfl | rfl | rfl | rfl | rfl | rfl | rfl | rfl | rfl | rfl
  · exact ⟨.nop, eq_pattern_of_selects_f0 h, rfl⟩
  · exact ⟨.statClr, eq_pattern_of_selects_f0 h, rfl⟩
  · exact ⟨.crcInit, eq_pattern_of_selects_f0 h, rfl⟩
  · exact ⟨.crcByte (bField w), eq_wordOf_of_selects_fb h, rfl⟩
  · exact ⟨.crcHalf (hField w), eq_wordOf_of_selects_fh h, rfl⟩
  · exact ⟨.crcCheck (hField w), eq_wordOf_of_selects_fh h, rfl⟩
  · exact ⟨.shPack, eq_pattern_of_selects_f0 h, rfl⟩
  · exact ⟨.shUnpack, eq_pattern_of_selects_f0 h, rfl⟩
  · exact ⟨.tsConvert, eq_pattern_of_selects_f0 h, rfl⟩
  · exact ⟨.tsFromUnix, eq_pattern_of_selects_f0 h, rfl⟩
  · exact ⟨.tsPack, eq_pattern_of_selects_f0 h, rfl⟩

/-- The word of a command selects the command's row. -/
theorem encode_selects_row (i : Instr) : EncodeSelectsRow.Statement i := by
  cases i with
  | nop => exact EncodeSelectsRow.nop
  | statClr => exact EncodeSelectsRow.statClr
  | crcInit => exact EncodeSelectsRow.crcInit
  | crcByte b => exact EncodeSelectsRow.crcByte b
  | crcHalf h => exact EncodeSelectsRow.crcHalf h
  | crcCheck h => exact EncodeSelectsRow.crcCheck h
  | shPack => exact EncodeSelectsRow.shPack
  | shUnpack => exact EncodeSelectsRow.shUnpack
  | tsConvert => exact EncodeSelectsRow.tsConvert
  | tsFromUnix => exact EncodeSelectsRow.tsFromUnix
  | tsPack => exact EncodeSelectsRow.tsPack

end Sys2Proof.Proofs

/-! PROOFS. The words and values of the host-side assembler (spec/30_encoding.md R65). -/

namespace Sys2Proof.Proofs

open Sys2Proof Sys2Proof.Machine Sys2Proof.Safety Sys2Proof.Laws

/-! ### Command words -/

/-- A command word is its fields, each shifted to its place (R56). -/
theorem wordOf_eq_shiftLeft_or (h : Half) (b op : Byte) :
    wordOf h b op = (h.setWidth 32 <<< 16) ||| (b.setWidth 32 <<< 8) ||| op.setWidth 32 := by
  rw [← BitVec.setWidth_eq (wordOf h b op), wordOf]
  exact BitVec.setWidth_append_append_eq_shiftLeft_setWidth_or

/-- The word of a command with IMM8 alone. -/
theorem imm8_word (b op : Byte) : (b.setWidth 32 <<< 8) ||| op.setWidth 32 = wordOf 0 b op := by
  rw [wordOf_eq_shiftLeft_or]
  simp

/-- The word of a command with IMM16 alone. -/
theorem imm16_word (h : Half) (op : Byte) : (h.setWidth 32 <<< 16) ||| op.setWidth 32 = wordOf h 0 op := by
  rw [wordOf_eq_shiftLeft_or]
  simp

/-- An integer operand in range is the field it goes to. -/
theorem ofInt_toNat {n : Nat} (x : BitVec n) : BitVec.ofInt 32 (x.toNat : Int) = x.setWidth 32 := by
  rw [BitVec.ofInt_natCast, BitVec.ofNat_toNat]

theorem crcByteWord_toNat (b : Byte) : crcByteWord b.toNat = (b.setWidth 32 <<< 8) ||| 0x11#32 := by
  rw [crcByteWord, ofInt_toNat]

theorem crcHalfWord_toNat (h : Half) (op : Word) : crcHalfWord h.toNat op = (h.setWidth 32 <<< 16) ||| op := by
  rw [crcHalfWord, ofInt_toNat]

theorem byte_toNat_range (b : Byte) : (0 : Int) ≤ b.toNat ∧ (b.toNat : Int) ≤ 0xFF := by omega

theorem half_toNat_range (h : Half) : (0 : Int) ≤ h.toNat ∧ (h.toNat : Int) ≤ 0xFFFF := by omega

/-- `crc.byte` of a byte writes CRC_BYTE's word. -/
theorem assembleLine_crcByte (p : Params) (b : Byte) :
    assembleLine p (.crcByte b.toNat) = some [.write p.base 4 ((b.setWidth 32 <<< 8) ||| 0x11#32)] := by
  rw [assembleLine, if_pos (byte_toNat_range b), crcByteWord_toNat]
  rfl

/-- `crc.half` of a half-word writes CRC_HALF's word. -/
theorem assembleLine_crcHalf (p : Params) (h : Half) :
    assembleLine p (.crcHalf h.toNat) = some [.write p.base 4 ((h.setWidth 32 <<< 16) ||| 0x12#32)] := by
  rw [assembleLine, if_pos (half_toNat_range h), crcHalfWord_toNat]
  rfl

/-- `crc.check` of a half-word writes CRC_CHECK's word. -/
theorem assembleLine_crcCheck (p : Params) (h : Half) :
    assembleLine p (.crcCheck h.toNat) = some [.write p.base 4 ((h.setWidth 32 <<< 16) ||| 0x13#32)] := by
  rw [assembleLine, if_pos (half_toNat_range h), crcHalfWord_toNat]
  rfl

/-! ### Refusals -/

/-- The assembler refuses exactly the lines with an operand out of range (R65). -/
theorem assembleLine_eq_none_iff (p : Params) (l : AsmLine) : assembleLine p l = none ↔ l.wellFormed = false := by
  cases l with
  | crcByte b | crcHalf h | crcCheck h => simp [assembleLine, AsmLine.wellFormed]
  | _ => exact ⟨nofun, nofun⟩

/-! ### Loaded operands -/

/-- The value of `sh.load` is what SH_FIELDS reads when it holds the operands. -/
theorem shLoadWord_eq_readReg (s : State) :
    shLoadWord s.sh.version s.sh.ack s.sh.service s.sh.subservice = readReg .SH_FIELDS s := by
  rw [← BitVec.setWidth_eq (readReg .SH_FIELDS s), readReg]
  simp only [BitVec.setWidth_append_eq_shiftLeft_setWidth_or, BitVec.shiftLeft_or_distrib, ← BitVec.shiftLeft_add]
  simp [shLoadWord]

/-- The value of `sh.load` sets the fields of SH_FIELDS to the operands. -/
theorem writeReg_shFields_shLoadWord (s : State) (ver : Nibble) (ack svc sub : Byte) :
    writeReg .SH_FIELDS (shLoadWord ver ack svc sub) s =
      { s with sh := { s.sh with version := ver, ack := ack, service := svc, subservice := sub } } := by
  have hkeep := writeReg_readReg .SH_FIELDS
    { s with sh := { s.sh with version := ver, ack := ack, service := svc, subservice := sub } }
  rwa [← shLoadWord_eq_readReg] at hkeep

/-- The two words of `unix.load` are the halves of the 64-bit value. -/
theorem pair64_halves (x : BitVec 64) : pair64 ((x.sshiftRight 32).setWidth 32) (x.setWidth 32) = x := by
  have hhi : (x.sshiftRight 32).setWidth 32 = x.extractLsb' 32 32 := by
    refine BitVec.eq_of_getLsbD_eq fun k hk => ?_
    have hlow : 32 + k < 64 := by omega
    have hk64 : ¬ 64 ≤ k := by omega
    rw [BitVec.getLsbD_setWidth, BitVec.getLsbD_sshiftRight, BitVec.getLsbD_extractLsb', if_pos hlow]
    simp [hk64]
  rw [pair64, hhi, BitVec.setWidth_eq_extractLsb' (by decide)]
  exact BitVec.extractLsb'_append_extractLsb'

end Sys2Proof.Proofs

/-! PROOFS. The statements of spec/30_encoding.md: decoding and encoding, the opcode map, illegal words, and the
assembler. -/

namespace Sys2Proof.Proofs

open Sys2Proof Sys2Proof.Machine Sys2Proof.Safety Sys2Proof.Laws

/-- Settles O10: both directions go through the fields of the word (`decode_encode`, `eq_encode_of_decode`). -/
theorem decodeEncodeAgree : Obligations.DecodeEncodeAgree :=
  ⟨fun i _ => decode_encode i, fun _ i h => ⟨instr_wellFormed i, (eq_encode_of_decode h).symm⟩⟩

/-- Settles O11: a row selects exactly the words of its commands, and no two rows agree on the bits that both look at. -/
theorem decoderFollowsOpcodeMap : Obligations.DecoderFollowsOpcodeMap := by
  refine ⟨fun w r₁ hr₁ r₂ hr₂ h₁ h₂ => ?disjoint, fun w r hr h => ?selected, fun w i h => ?decoded⟩
  case disjoint => exact eq_of_patterns_agree r₁ hr₁ r₂ hr₂ (patterns_agree_of_selects h₁ h₂)
  case selected =>
    obtain ⟨i, rfl, hi⟩ := exists_eq_encode_of_selects hr h
    exact ⟨i, decode_encode i, hi⟩
  case decoded =>
    obtain rfl := eq_encode_of_decode h
    obtain ⟨r, hr, hname, hsel⟩ := encode_selects_row i
    exact ⟨r, hr, hsel, hname⟩

/-- Settles O12: a word is illegal by its opcode's place in the map or by its format's fields, and its write ends with
ILLEGAL_CMD. -/
theorem illegalWordsEndWithIllegalCmd : Obligations.IllegalWordsEndWithIllegalCmd := by
  refine ⟨decode_unassigned_iff, fun w => ?mustBeZero, count_unassignedOp, fun s w e he hc => ?effect⟩
  case mustBeZero =>
    rw [decode_mustBeZero_iff, exists_format_iff, formatOk_f0_eq_false_iff, formatOk_fb_eq_false_iff, formatOk_fh_eq_false_iff]
    simp only [formatOpcodes, List.mem_cons, List.not_mem_nil, or_false]
  case effect =>
    rw [step_of_nextCommand hc, runCommand, he]
    rfl

/-- Settles O15: an immediate in range is shifted to its field of the command's word, and the loads write the values that
their registers read back as the operands. -/
theorem assemblerExpandsPseudoInstructions : Obligations.AssemblerExpandsPseudoInstructions := by
  refine ⟨fun _ => ⟨rfl, rfl, rfl, rfl, rfl, rfl, rfl, rfl⟩, fun p b => ?crcByte, fun p h => ?crcHalf,
    fun p h => ?crcCheck, assembleLine_eq_none_iff, fun _ _ _ _ _ _ => rfl, ?shLoad, fun p x => ?unixLoad⟩
  case crcByte =>
    refine ⟨_, assembleLine_crcByte p b, rfl, ?_⟩
    exact (congrArg decode (imm8_word b 0x11)).trans (decode_encode (.crcByte b))
  case crcHalf =>
    refine ⟨_, assembleLine_crcHalf p h, rfl, ?_⟩
    exact (congrArg decode (imm16_word h 0x12)).trans (decode_encode (.crcHalf h))
  case crcCheck =>
    refine ⟨_, assembleLine_crcCheck p h, rfl, ?_⟩
    exact (congrArg decode (imm16_word h 0x13)).trans (decode_encode (.crcCheck h))
  case shLoad =>
    rintro s ver ack svc sub src _ rfl
    rw [writeReg_shFields_shLoadWord]
    exact ⟨rfl, rfl, rfl, rfl, rfl⟩
  case unixLoad =>
    exact ⟨_, _, rfl, fun s => congrArg BitVec.toInt (pair64_halves x)⟩

/-- Settles O13: the word 0 is NOP's word, and NOP completes with OK and no write. -/
theorem zeroWordIsNop : Obligations.ZeroWordIsNop := by
  refine ⟨decode_encode .nop, fun s hc => ?_⟩
  have hnop : NextCommand s (encode .nop) := hc
  exact step_of_nextCommand_encode hnop

/-- Settles O14: five of the words are encodings; of the other two, one has an unassigned opcode and one a nonzero H under
format F0. -/
theorem specWordsDecode : Obligations.SpecWordsDecode :=
  ⟨decode_encode (.crcByte 0x31), decode_encode (.crcHalf 0x1234), decode_encode (.crcCheck 0x29B1), decode_encode .shPack,
    decode_encode .tsPack, (decode_unassigned_iff _).mpr (by decide),
    (decode_mustBeZero_iff _).mpr ⟨.f0, by decide, by decide⟩⟩

end Sys2Proof.Proofs

/-! PROOFS. What every command does to STATUS and what the host is to it: a row of the STATUS table from the result
code (spec/40_control.md R68, spec/60_exceptions.md R112), STATUS from the word a read returns (spec/10_state.md R17 to
R21), and a command beside another host (spec/40_control.md R69, R40). -/

namespace Sys2Proof.Proofs

open Sys2Proof Sys2Proof.Machine Sys2Proof.Safety Sys2Proof.Laws

/-! ### STATUS as a read shows it -/

/-- The word a read of STATUS returns holds all of STATUS, so two states that read alike have the same STATUS. -/
theorem status_eq_of_readReg {s : State} {w : Word} (h : readReg .STATUS s = w) :
    s.status = ⟨w.extractLsb' 0 4, w.getLsbD 4, w.getLsbD 5, w.getLsbD 6, w.getLsbD 7⟩ := by
  have hw : statusWord s.status = w := h
  rw [← hw, statusWord_err, statusWord_sticky, statusWord_matched, statusWord_verKnown, statusWord_tsValid]

/-! ### The whole effect of the control commands and of an illegal word -/

theorem exec_nop (s : State) : exec .nop s = .next { s with status := { s.status with err := 0#4 } } :=
  exec_eq_next_complete .nop s

theorem exec_statClr (s : State) :
    exec .statClr s = .next { s with status := { s.status with err := 0#4, sticky := false } } :=
  exec_eq_next_complete .statClr s

/-- A word that decodes to no command ends with ILLEGAL_CMD and writes nothing else (spec/30_encoding.md R61). -/
theorem runCommand_of_illegal {w : Word} {x : IllegalWord} (hd : decode w = .error x) (s : State) :
    runCommand w s = .next { s with status := statusIllegal s } := by
  rw [runCommand, hd]
  rfl

/-! ### STATUS from the result code -/

theorem exec_status {i : Instr} {s t : State} (h : exec i s = .next t) : t.status = statusAfter i s := by
  rw [exec_eq_next_complete] at h
  cases h
  exact complete_status i s

/-- Only STAT_CLR takes STICKY from 1 to 0 (spec/40_control.md R71). -/
theorem eq_statClr_of_clears_sticky {i : Instr} {s t : State} (h : exec i s = .next t) (hs : s.status.sticky = true)
    (ht : t.status.sticky = false) : i = .statClr := by
  by_contra hi
  rw [exec_status h, statusAfter_sticky_of_set hs hi] at ht
  cases ht

/-- The "OR (ERR != 0)" of the rule's table (spec/40_control.md R68). -/
theorem stickyAfter_eq_or_err (code : ResultCode) (b : Bool) :
    stickyAfter code b = (b || decide (resultBits code ≠ 0#4)) := by
  have herr : code ≠ .ok ↔ resultBits code ≠ 0#4 := not_congr (resultBits_eq_zero_iff code).symm
  rw [stickyAfter_eq, decide_eq_decide.mpr herr]

/-- Every command but STAT_CLR leaves in STICKY its old value or a non-zero ERR. -/
theorem exec_status_of_ne_statClr {i : Instr} {s t : State} (h : exec i s = .next t) (hi : i ≠ .statClr) :
    t.status = { statusAfter i s with
      sticky := s.status.sticky || decide (resultBits (resultOf i s) ≠ 0#4) } := by
  rw [exec_status h, ← stickyAfter_eq_or_err]
  simp [statusAfter, hi]

/-- TS_CONVERT and TS_FROM_UNIX set TS_VALID exactly when they end with ERR 0. -/
theorem exec_status_of_commit {i : Instr} {s t : State} (hi : i = .tsConvert ∨ i = .tsFromUnix)
    (h : exec i s = .next t) :
    t.status = { s.status with
      err := resultBits (resultOf i s)
      sticky := s.status.sticky || decide (resultBits (resultOf i s) ≠ 0#4)
      tsValid := s.status.tsValid || decide (resultBits (resultOf i s) = 0#4) } := by
  have hok : decide (resultBits (resultOf i s) = 0#4) = decide (resultOf i s = .ok) :=
    decide_eq_decide.mpr (resultBits_eq_zero_iff _)
  rw [hok]
  rcases hi with rfl | rfl
  · exact exec_status_of_ne_statClr h (by decide)
  · exact exec_status_of_ne_statClr h (by decide)

/-- A command that ends with one of two result codes leaves one of their numbers in ERR. -/
theorem resultBits_cases {code a b : ResultCode} (h : code = a ∨ code = b) :
    resultBits code = resultBits a ∨ resultBits code = resultBits b :=
  h.imp (congrArg resultBits) (congrArg resultBits)

/-- TS_CONVERT and TS_FROM_UNIX end with OK or RANGE (spec/43_timestamp.md R96, R103). -/
theorem resultOf_commit_cases {i : Instr} (hi : i = .tsConvert ∨ i = .tsFromUnix) (s : State) :
    resultOf i s = .ok ∨ resultOf i s = .range := by
  rcases hi with rfl | rfl
  · exact convertResult_cases _
  · exact resultOf_tsFromUnix_cases s

/-- The version field of a frame's first byte as a number (spec/42_sechdr.md R83). -/
theorem upperNibble_toNat (b : Byte) : (b.extractLsb' 4 4).toNat = b.toNat / 16 := by
  rw [BitVec.extractLsb'_toNat, Nat.shiftRight_eq_div_pow]
  omega

/-! ### A command beside another host -/

/-- The block of `s` beside a host with another program, index and record of reads. -/
def withhalfost (prog : List HostMove) (pc : Nat) (reads : List Word) (s : State) : State :=
  { s with program := prog, pc := pc, reads := reads }

section OtherHost

variable (i : Instr) (prog : List HostMove) (pc : Nat) (reads : List Word) (s u : State)

/-- The host's side does not reach a command's result code. -/
theorem resultOf_withhalfost : resultOf i (withhalfost prog pc reads s) = resultOf i s := by
  cases i <;> rfl

/-- The host's side does not reach a command's writes. -/
theorem writesOf_withhalfost : writesOf i (withhalfost prog pc reads s) = writesOf i s := by
  cases i <;> rfl

/-- A command's writes leave the host's side as they find it. -/
theorem writesOf_commutes_withhalfost :
    writesOf i s (withhalfost prog pc reads u) = withhalfost prog pc reads (writesOf i s u) := by
  cases i with
  | tsFromUnix =>
    unfold writesOf
    split <;> rfl
  | _ => rfl

/-- A completion leaves the host's side as it finds it, if the rule's writes do. -/
theorem complete_withhalfost {code : ResultCode} {w : State → State}
    (hw : w (withhalfost prog pc reads s) = withhalfost prog pc reads (w s)) :
    complete code w (withhalfost prog pc reads s) = withhalfost prog pc reads (complete code w s) := by
  cases code with
  | ok => rw [complete_ok, complete_ok, hw]; rfl
  | checksumMismatch => rw [complete_mismatch, complete_mismatch, hw]; rfl
  | _ => rfl

/-- A command beside another host leaves the same block beside that host. -/
theorem exec_withhalfost : exec i (withhalfost prog pc reads s) =
    .next (withhalfost prog pc reads (complete (resultOf i s) (writesOf i s) s)) := by
  rw [exec_eq_next_complete, resultOf_withhalfost, writesOf_withhalfost,
    complete_withhalfost prog pc reads s (writesOf_commutes_withhalfost i prog pc reads s s)]

end OtherHost

end Sys2Proof.Proofs

/-! PROOFS. The statements of spec/40_control.md: NOP, STAT_CLR, the table of STATUS writes, and a command's independence
of the host. -/

namespace Sys2Proof.Proofs

open Sys2Proof Sys2Proof.Machine Sys2Proof.Safety Sys2Proof.Laws

/-- Settles O21: result code and writes do not read the host's side, and completion carries it through. -/
theorem commandIndependentOfHost : Obligations.CommandIndependentOfHost := by
  intro i s prog pc reads
  rw [exec_eq_next_complete i s]
  exact exec_withhalfost i prog pc reads s

/-- Settles O23: STAT_CLR's completion clears STICKY after its OK, which every other command's completion keeps. -/
theorem statClrClearsErrorRecord : Obligations.StatClrClearsErrorRecord := by
  refine ⟨decode_encode .statClr, exec_statClr, fun i s t => eq_statClr_of_clears_sticky, fun s hs => ?specExample⟩
  case specExample =>
    have hbefore : s.status = ⟨3, true, true, false, true⟩ := status_eq_of_readReg hs
    have hafter : statusWord ⟨0, false, true, false, true⟩ = 0x000000A0#32 := by decide
    refine ⟨_, exec_statClr s, ?_⟩
    rw [hbefore]
    exact hafter

/-- Settles O46: each row is `statusAfter`, with STICKY and TS_VALID said through the number of the result code. -/
theorem statusBitsEachCommandWrites : Obligations.StatusBitsEachCommandWrites := by
  refine fun s t => ⟨fun i hi h => ?succeeding, fun h => exec_status h, fun x h => ?crcCheck, fun h => ?shPack,
    fun h => ?shUnpack, fun i hi h => ?commit, fun h => ?tsPack, fun w x hd h => ?illegal⟩
  case succeeding =>
    rw [exec_status h]
    rcases hi with rfl | rfl | ⟨b, rfl⟩ | ⟨x, rfl⟩ <;> rfl
  case crcCheck =>
    exact ⟨_, resultBits_cases (ite_eq_or_eq _ _ _), exec_status_of_ne_statClr h (by simp)⟩
  case shPack =>
    exact ⟨_, resultBits_cases (ite_eq_or_eq _ _ _), exec_status_of_ne_statClr h (by decide)⟩
  case shUnpack =>
    rw [exec_status h, ← upperNibble_toNat]
    rfl
  case commit =>
    exact ⟨_, resultBits_cases (resultOf_commit_cases hi s), exec_status_of_commit hi h⟩
  case tsPack =>
    exact ⟨_, resultBits_cases (ite_eq_or_eq _ _ _), exec_status_of_ne_statClr h (by decide)⟩
  case illegal =>
    rw [runCommand_of_illegal hd] at h
    cases h
    rfl

/-- Settles O22: NOP completes with OK and no write; each near word has a nonzero field that format F0 wants zero. -/
theorem nopOnlyReportsSuccess : Obligations.NopOnlyReportsSuccess := by
  have hbyte : decode 0x00000100#32 = .error .mustBeZero :=
    (decode_mustBeZero_iff _).mpr ⟨.f0, by decide, by decide⟩
  have hhalf : decode 0x00010000#32 = .error .mustBeZero :=
    (decode_mustBeZero_iff _).mpr ⟨.f0, by decide, by decide⟩
  refine ⟨decode_encode .nop, exec_nop, hbyte, hhalf,
    fun s => ⟨runCommand_of_illegal hbyte s, runCommand_of_illegal hhalf s⟩, fun s hs => ?specExample⟩
  case specExample =>
    have hbefore : s.status = ⟨3, true, false, false, false⟩ := status_eq_of_readReg hs
    have hafter : statusWord ⟨0, true, false, false, false⟩ = 0x00000010#32 := by decide
    refine ⟨_, exec_nop s, ?_⟩
    rw [hbefore]
    exact hafter

end Sys2Proof.Proofs

/-! PROOFS. The CRC function (spec/41_crc.md R73, R74): over XOR its shifts are linear and one-to-one, so a fold is one-to-one
in the register and in each byte, and two bytes that equal the register take it to 0. -/

namespace Sys2Proof.Proofs

open Sys2Proof Sys2Proof.Machine Sys2Proof.Safety Sys2Proof.Laws

/-! ### Shifts are linear -/

theorem xor_xor_xor_comm {n : Nat} (a b c d : BitVec n) : a ^^^ b ^^^ (c ^^^ d) = a ^^^ c ^^^ (b ^^^ d) := by ac_rfl

/-- The bits that a shift adds to the register when the bit `b` leaves it. -/
def crcFeedback (b : Bool) : Half := if b then crcPoly else 0#16

theorem crcFeedback_xor (a b : Bool) : crcFeedback (a ^^ b) = crcFeedback a ^^^ crcFeedback b := by
  cases a <;> cases b <;> decide

theorem crcShift_eq_feedback (c : Half) : crcShift c = c <<< 1 ^^^ crcFeedback (c.getLsbD 15) := by
  unfold crcShift crcFeedback
  split
  · rfl
  · rw [BitVec.xor_zero]

theorem crcShift_xor (c d : Half) : crcShift (c ^^^ d) = crcShift c ^^^ crcShift d := by
  simp only [crcShift_eq_feedback, BitVec.getLsbD_xor, crcFeedback_xor, BitVec.shiftLeft_xor_distrib]
  exact xor_xor_xor_comm _ _ _ _

theorem crcShifts_xor (n : Nat) (c d : Half) : crcShifts n (c ^^^ d) = crcShifts n c ^^^ crcShifts n d := by
  induction n generalizing c d with
  | zero => rfl
  | succ n ih => rw [crcShifts, crcShift_xor, ih]; rfl

theorem crcShifts_add (m n : Nat) (c : Half) : crcShifts (m + n) c = crcShifts n (crcShifts m c) := by
  induction m generalizing c with
  | zero => rw [Nat.zero_add]; rfl
  | succ m ih => rw [Nat.succ_add, crcShifts, ih]; rfl

@[simp] theorem crcShifts_zero (n : Nat) : crcShifts n 0#16 = 0#16 := by
  induction n with
  | zero => rfl
  | succ n ih => exact ih

/-! ### Shifts lose nothing -/

/-- The feedback sets bit 0, which a shift leaves 0, so no shift with feedback gives 0; one without gives 0 only for 0. -/
theorem eq_zero_of_crcShift_eq_zero {c : Half} (h : crcShift c = 0#16) : c = 0#16 := by
  have hbit (k : Nat) : (crcShift c).getLsbD k = false := by rw [h, BitVec.getLsbD_zero]
  cases htop : c.getLsbD 15 with
  | true =>
    have := hbit 0
    simp [crcShift, htop, crcPoly] at this
  | false =>
    refine BitVec.eq_of_getLsbD_eq fun k hk => ?_
    have hnext := hbit (k + 1)
    rw [crcShift, htop, if_neg Bool.false_ne_true, BitVec.getLsbD_shiftLeft] at hnext
    by_cases hk15 : k = 15
    · rw [hk15, htop, BitVec.getLsbD_zero]
    · have hlt : k + 1 < 16 := by omega
      simpa [hlt] using hnext

theorem crcShift_injective : Function.Injective crcShift := by
  intro c d h
  refine BitVec.xor_eq_zero_iff.mp (eq_zero_of_crcShift_eq_zero ?_)
  rw [crcShift_xor, h, BitVec.xor_self]

theorem crcShifts_injective (n : Nat) : Function.Injective (crcShifts n) := by
  induction n with
  | zero => exact fun _ _ h => h
  | succ n ih => exact ih.comp crcShift_injective

theorem crcShifts_eq_zero_iff {n : Nat} {c : Half} : crcShifts n c = 0#16 ↔ c = 0#16 := by
  constructor
  · intro h
    exact crcShifts_injective n (h.trans (crcShifts_zero n).symm)
  · rintro rfl
    exact crcShifts_zero n

/-! ### Bytes of the register -/

/-- Shifts that push only zeros out of the register are plain shifts. -/
theorem crcShifts_eq_shiftLeft {n : Nat} {c : Half} (h : c.toNat * 2 ^ n < 2 ^ 16) : crcShifts n c = c <<< n := by
  induction n generalizing c with
  | zero => rw [BitVec.shiftLeft_zero]; rfl
  | succ n ih =>
    have hdouble : c.toNat * 2 * 2 ^ n < 2 ^ 16 := by rwa [Nat.mul_assoc, ← Nat.pow_succ']
    have hsmall : c.toNat * 2 < 2 ^ 16 := lt_of_le_of_lt (Nat.le_mul_of_pos_right _ (Nat.two_pow_pos n)) hdouble
    have htop : c.getLsbD 15 = false := (BitVec.testBit_toNat c).symm.trans (Nat.testBit_lt_two_pow (by omega))
    have hshift : crcShift c = c <<< 1 := by rw [crcShift, htop, if_neg Bool.false_ne_true]
    have hnat : (c <<< 1).toNat = c.toNat * 2 := by
      rw [BitVec.toNat_shiftLeft, Nat.shiftLeft_eq, Nat.mod_eq_of_lt hsmall]
    rw [crcShifts, hshift, ih (by rwa [hnat]), ← BitVec.shiftLeft_add, Nat.add_comm]

/-- Eight shifts move the low byte up. -/
theorem crcShifts_eight_zero_append (b : Byte) : crcShifts 8 (0#8 ++ b) = b ++ 0#8 := by
  have hnat : (0#8 ++ b : Half).toNat = b.toNat := by
    rw [BitVec.toNat_append, BitVec.toNat_ofNat, Nat.zero_mod, Nat.zero_shiftLeft, Nat.zero_or]
  have hlt : (0#8 ++ b : Half).toNat * 2 ^ 8 < 2 ^ 16 := by omega
  rw [crcShifts_eq_shiftLeft hlt]
  refine BitVec.eq_of_toNat_eq ?_
  rw [BitVec.toNat_shiftLeft, hnat, Nat.shiftLeft_eq, BitVec.toNat_append, BitVec.toNat_ofNat, Nat.zero_mod, Nat.or_zero,
    Nat.shiftLeft_eq]
  omega

theorem half_eq_append (c : Half) : c.extractLsb' 8 8 ++ c.extractLsb' 0 8 = c :=
  (BitVec.extractLsb'_append_extractLsb'_eq_extractLsb' rfl).trans BitVec.extractLsb'_eq_self

/-- The update by table: only the high byte and the fed byte go through the shifts, the low byte moves up. -/
theorem crcUpdate_append (hi lo b : Byte) :
    crcUpdate (hi ++ lo) b = crcShifts 8 ((hi ^^^ b) ++ 0#8) ^^^ (lo ++ 0#8) := by
  have hsplit : (hi ++ lo) ^^^ (b ++ 0#8) = ((hi ^^^ b) ++ 0#8) ^^^ (0#8 ++ lo) := by
    simp only [BitVec.xor_append, BitVec.xor_zero, BitVec.zero_xor]
  rw [crcUpdate, hsplit, crcShifts_xor, crcShifts_eight_zero_append]

/-- Two updates are sixteen shifts of the register with both bytes added. -/
theorem crcUpdate_crcUpdate (c : Half) (hi lo : Byte) :
    crcUpdate (crcUpdate c hi) lo = crcShifts 16 (c ^^^ (hi ++ lo)) := by
  have hbytes : hi ++ lo = (hi ++ 0#8) ^^^ (0#8 ++ lo) := by
    rw [BitVec.xor_append, BitVec.xor_zero, BitVec.zero_xor]
  rw [crcShifts_add 8 8, hbytes, ← BitVec.xor_assoc, crcShifts_xor 8, crcShifts_eight_zero_append]
  rfl

/-- The residue (spec/41_crc.md R81): two bytes take the register to 0 exactly when they are its own. -/
theorem crcUpdate_bytes_eq_zero_iff (c h : Half) :
    crcUpdate (crcUpdate c (h.extractLsb' 8 8)) (h.extractLsb' 0 8) = 0#16 ↔ h = c := by
  rw [crcUpdate_crcUpdate, half_eq_append, crcShifts_eq_zero_iff, BitVec.xor_eq_zero_iff, eq_comm]

/-! ### What a zero byte keeps -/

/-- A zero byte keeps a register exactly when the table's row for its high byte gives back both of its bytes. -/
theorem crcUpdate_zero_eq_self_iff (hi lo : Byte) :
    crcUpdate (hi ++ lo) 0#8 = hi ++ lo ↔ crcShifts 8 (hi ++ 0#8) = (hi ^^^ lo) ++ lo := by
  rw [crcUpdate_append, BitVec.xor_zero, ← BitVec.xor_left_inj (lo ++ 0#8), BitVec.xor_assoc, BitVec.xor_self,
    BitVec.xor_zero, BitVec.xor_append, BitVec.xor_zero]

/-- The rows of the table whose two bytes add up to the byte they stand for. -/
theorem crcRow_bytes_eq_iff : ∀ hi : Byte,
    (crcShifts 8 (hi ++ 0#8)).extractLsb' 8 8 ^^^ (crcShifts 8 (hi ++ 0#8)).extractLsb' 0 8 = hi ↔
      hi = 0x00#8 ∨ hi = 0xF0#8 := by decide +kernel

/-- A register that a zero byte keeps has one of two high bytes, and the row of each fixes its low byte. -/
theorem eq_of_crcUpdate_zero_eq_self {hi lo : Byte} (h : crcUpdate (hi ++ lo) 0#8 = hi ++ lo) :
    hi ++ lo = 0x0000#16 ∨ hi ++ lo = 0xF01F#16 := by
  have hrow := (crcUpdate_zero_eq_self_iff hi lo).mp h
  have hlow : (crcShifts 8 (hi ++ 0#8)).extractLsb' 0 8 = lo := by
    rw [hrow]
    exact BitVec.extractLsb'_append_eq_right
  have hhigh : (crcShifts 8 (hi ++ 0#8)).extractLsb' 8 8 = hi ^^^ lo := by
    rw [hrow]
    exact BitVec.extractLsb'_append_eq_left
  have hhi : hi = 0x00#8 ∨ hi = 0xF0#8 := by
    rw [← crcRow_bytes_eq_iff, hlow, hhigh, BitVec.xor_assoc, BitVec.xor_self, BitVec.xor_zero]
  rcases hhi with rfl | rfl
  · rw [← hlow]
    exact .inl (by decide)
  · rw [← hlow]
    exact .inr (by decide)

/-! ### Updates and folds are one-to-one -/

theorem crcUpdate_left_injective (b : Byte) : Function.Injective fun c => crcUpdate c b :=
  fun _ _ h => (BitVec.xor_left_inj _).mp (crcShifts_injective 8 h)

theorem crcUpdate_right_injective (c : Half) : Function.Injective (crcUpdate c) :=
  fun _ _ h => (BitVec.append_left_inj 0#8).mp ((BitVec.xor_right_inj c).mp (crcShifts_injective 8 h))

theorem crcFold_injective (m : List Byte) : Function.Injective fun c => crcFold c m := by
  induction m with
  | nil => exact fun _ _ h => h
  | cons b rest ih => exact ih.comp (crcUpdate_left_injective b)

theorem crcFold_append (c : Half) (x y : List Byte) : crcFold c (x ++ y) = crcFold (crcFold c x) y := by
  induction x generalizing c with
  | nil => rfl
  | cons b rest ih => exact ih (crcUpdate c b)

theorem xor_bit_ne_self (b : Byte) {j : Nat} (hj : j < 8) : b ^^^ (1#8 <<< j) ≠ b := by
  intro h
  have hbit := congrArg (fun v => v.getLsbD j) h
  simp [hj] at hbit

/-- A flipped bit changes the register at its byte, and the bytes after it keep the difference (spec/41_crc.md R82). -/
theorem crcFold_flipBit_ne (m : List Byte) {k j : Nat} (hk : k < m.length) (hj : j < 8) (c : Half) :
    crcFold c (flipBit m k j) ≠ crcFold c m := by
  induction m generalizing c k with
  | nil => exact absurd hk (Nat.not_lt_zero k)
  | cons b rest ih =>
    cases k with
    | zero => exact fun h => xor_bit_ne_self b hj (crcUpdate_right_injective c (crcFold_injective rest h))
    | succ k => exact ih (Nat.lt_of_succ_lt_succ hk) (crcUpdate c b)

end Sys2Proof.Proofs

/-! PROOFS. The CRC function as polynomials over GF(2) (spec/41_crc.md R73, R82): a shift multiplies by `x` modulo the
generator, so a fold is a remainder. -/

namespace Sys2Proof.Proofs

open Sys2Proof Sys2Proof.Machine
open Polynomial (X)

/-! ### Bits as coefficients -/

/-- The polynomial over GF(2) whose coefficients are the bits of `v`. -/
noncomputable def polyOf {n : ℕ} (v : BitVec n) : Polynomial (ZMod 2) :=
  ∑ k ∈ Finset.range n, if v.getLsbD k then X ^ k else 0

theorem polyOf_xor {n : ℕ} (v w : BitVec n) : polyOf (v ^^^ w) = polyOf v + polyOf w := by
  unfold polyOf
  rw [← Finset.sum_add_distrib]
  refine Finset.sum_congr rfl fun k _ => ?_
  rw [BitVec.getLsbD_xor]
  cases v.getLsbD k <;> cases w.getLsbD k <;> simp [CharTwo.add_self_eq_zero]

theorem polyOf_append {a b : ℕ} (v : BitVec a) (w : BitVec b) : polyOf (v ++ w) = polyOf v * X ^ b + polyOf w := by
  have hlow : ∀ k ∈ Finset.range b, (v ++ w).getLsbD k = w.getLsbD k := by
    intro k hk
    rw [BitVec.getLsbD_append, if_pos (Finset.mem_range.mp hk)]
  have hhigh : ∀ k, (v ++ w).getLsbD (b + k) = v.getLsbD k := by
    intro k
    rw [getLsbD_append_of_le _ _ (Nat.le_add_right b k), Nat.add_sub_cancel_left]
  have hrange : Finset.range (a + b) = Finset.range (b + a) := congrArg _ (Nat.add_comm a b)
  unfold polyOf
  rw [hrange, Finset.sum_range_add, add_comm, Finset.sum_mul]
  refine congrArg₂ _ (Finset.sum_congr rfl fun k _ => ?_) (Finset.sum_congr rfl fun k hk => ?_)
  · rw [hhigh, ite_mul, zero_mul, ← pow_add, Nat.add_comm]
  · rw [hlow k hk]

theorem polyOf_zero (n : ℕ) : polyOf 0#n = 0 := by simp [polyOf]

/-- Multiplying by `x` is a shift, with the bit that leaves the register as the coefficient of `x^16`. -/
theorem polyOf_mul_X (c : Half) : polyOf c * X = polyOf (c <<< 1) + if c.getLsbD 15 then X ^ 16 else 0 := by
  have hbottom : (c <<< 1).getLsbD 0 = false := by simp
  have hshift : ∀ k ∈ Finset.range 15, (c <<< 1).getLsbD (k + 1) = c.getLsbD k := by
    intro k hk
    have hlt : k + 1 < 16 := by have := Finset.mem_range.mp hk; omega
    rw [BitVec.getLsbD_shiftLeft, decide_eq_true hlt]
    simp
  unfold polyOf
  rw [Finset.sum_range_succ _ 15, Finset.sum_range_succ' _ 15, hbottom, add_mul, Finset.sum_mul, if_neg Bool.false_ne_true,
    add_zero]
  refine congrArg₂ _ (Finset.sum_congr rfl fun k hk => ?_) (by rw [ite_mul, zero_mul, ← pow_succ])
  rw [hshift k hk, ite_mul, zero_mul, ← pow_succ]

theorem degree_polyOf_lt {n : ℕ} (v : BitVec n) : (polyOf v).degree < n := by
  rw [← Polynomial.mem_degreeLT]
  refine Submodule.sum_mem _ fun k hk => ?_
  rw [Polynomial.mem_degreeLT]
  split
  · rw [Polynomial.degree_X_pow]
    exact_mod_cast Finset.mem_range.mp hk
  · rw [Polynomial.degree_zero]
    exact WithBot.bot_lt_coe n

/-! ### The generator -/

/-- The generator polynomial that `CRC_POLY` stands for (spec/00_scope.md R9). -/
noncomputable def crcGenerator : Polynomial (ZMod 2) := X ^ 16 + X ^ 12 + X ^ 5 + 1

theorem degree_crcGenerator : crcGenerator.degree = 16 := by
  unfold crcGenerator
  compute_degree!

theorem crcGenerator_monic : crcGenerator.Monic := by
  unfold crcGenerator
  monicity!

/-- `CRC_POLY` holds the generator's coefficients below `x^16`. -/
theorem polyOf_crcPoly : X ^ 16 + polyOf crcPoly = crcGenerator := by
  have hbits : polyOf crcPoly = 1 + X ^ 5 + X ^ 12 := by simp [polyOf, Finset.sum_range_succ, crcPoly]
  rw [hbits, crcGenerator]
  ring

/-! ### Folding modulo the generator -/

/-- The polynomial of a message, its first byte highest. -/
noncomputable def messagePoly (m : List Byte) : Polynomial (ZMod 2) := m.foldl (fun q b => q * X ^ 8 + polyOf b) 0

theorem foldl_messagePoly (q : Polynomial (ZMod 2)) (m : List Byte) :
    m.foldl (fun q b => q * X ^ 8 + polyOf b) q = q * X ^ (8 * m.length) + messagePoly m := by
  unfold messagePoly
  induction m generalizing q with
  | nil => simp
  | cons b rest ih =>
    rw [List.foldl_cons, ih, List.foldl_cons, ih (0 * X ^ 8 + polyOf b), List.length_cons]
    ring

theorem messagePoly_cons (b : Byte) (rest : List Byte) :
    messagePoly (b :: rest) = polyOf b * X ^ (8 * rest.length) + messagePoly rest := by
  rw [messagePoly, List.foldl_cons, zero_mul, zero_add, foldl_messagePoly]

section Remainder

variable {R : Type} [CommRing R] (φ : Polynomial (ZMod 2) →+* R) (hφ : φ crcGenerator = 0)

include hφ

/-- Where the generator is 0, a shift multiplies by `x`. -/
theorem map_polyOf_crcShift (c : Half) : φ (polyOf (crcShift c)) = φ (polyOf c * X) := by
  rw [polyOf_mul_X, crcShift]
  split
  · have hgen : X ^ 16 = polyOf crcPoly + crcGenerator := by
      rw [← polyOf_crcPoly, add_left_comm, CharTwo.add_self_eq_zero, add_zero]
    rw [polyOf_xor, hgen, ← add_assoc, map_add φ _ crcGenerator, hφ, add_zero]
  · rw [add_zero]

theorem map_polyOf_crcShifts (n : ℕ) (c : Half) : φ (polyOf (crcShifts n c)) = φ (polyOf c * X ^ n) := by
  induction n generalizing c with
  | zero => rw [pow_zero, mul_one]; rfl
  | succ n ih => rw [crcShifts, ih, map_mul, map_polyOf_crcShift φ hφ, ← map_mul, mul_assoc, ← pow_succ']

theorem map_polyOf_crcUpdate (c : Half) (b : Byte) :
    φ (polyOf (crcUpdate c b)) = φ (polyOf c * X ^ 8 + polyOf b * X ^ 16) := by
  rw [crcUpdate, map_polyOf_crcShifts φ hφ, polyOf_xor, polyOf_append, polyOf_zero, add_zero, add_mul, mul_assoc, ← pow_add]

theorem map_polyOf_crcFold (c : Half) (m : List Byte) :
    φ (polyOf (crcFold c m)) = φ (polyOf c * X ^ (8 * m.length) + messagePoly m * X ^ 16) := by
  induction m generalizing c with
  | nil => simp [crcFold, messagePoly]
  | cons b rest ih =>
    rw [crcFold, ih, map_add, map_mul, map_polyOf_crcUpdate φ hφ, ← map_mul, ← map_add, messagePoly_cons, List.length_cons]
    exact congrArg φ (by ring)

end Remainder

/-- The fold is the remainder: equal modulo the generator, and of smaller degree. -/
theorem polyOf_crcFold (c : Half) (m : List Byte) :
    polyOf (crcFold c m) = (polyOf c * X ^ (8 * m.length) + messagePoly m * X ^ 16) %ₘ crcGenerator := by
  have hsmall : (polyOf (crcFold c m)).degree < crcGenerator.degree := by
    rw [degree_crcGenerator]
    exact degree_polyOf_lt _
  have hmod := map_polyOf_crcFold (AdjoinRoot.mk crcGenerator) AdjoinRoot.mk_self c m
  calc polyOf (crcFold c m) = polyOf (crcFold c m) %ₘ crcGenerator :=
        ((Polynomial.modByMonic_eq_self_iff crcGenerator_monic).mpr hsmall).symm
    _ = _ := Polynomial.modByMonic_eq_of_dvd_sub crcGenerator_monic (AdjoinRoot.mk_eq_mk.mp hmod)

end Sys2Proof.Proofs

/-! PROOFS. The whole effect of each CRC command (spec/41_crc.md R76 to R80), of its illegal near words, and of a list of
feeding commands (R74). -/

namespace Sys2Proof.Proofs

open Sys2Proof Sys2Proof.Machine Sys2Proof.Safety Sys2Proof.Laws

/-! ### Feeding the digest -/

/-- `s` after feeding the bytes `m`: their fold in CRC.VALUE, and ERR 0. -/
def feed (m : List Byte) (s : State) : State :=
  { s with crc := { s.crc with value := crcFold s.crc.value m }, status := { s.status with err := 0#4 } }

@[simp] theorem feed_crc_value (m : List Byte) (s : State) : (feed m s).crc.value = crcFold s.crc.value m := rfl

theorem feed_append (x y : List Byte) (s : State) : feed (x ++ y) s = feed y (feed x s) := by
  simp only [feed, crcFold_append]

theorem exec_crcByte (b : Byte) (s : State) : exec (.crcByte b) s = .next (feed [b] s) :=
  exec_eq_next_complete (.crcByte b) s

theorem exec_crcHalf (h : Half) (s : State) :
    exec (.crcHalf h) s = .next (feed [h.extractLsb' 8 8, h.extractLsb' 0 8] s) :=
  exec_eq_next_complete (.crcHalf h) s

/-- A feeding command feeds its bytes. -/
theorem exec_of_fedBytes {i : Instr} {m : List Byte} (h : fedBytes i = some m) (s : State) :
    exec i s = .next (feed m s) := by
  cases i with
  | crcByte b => cases h; exact exec_crcByte b s
  | crcHalf x => cases h; exact exec_crcHalf x s
  | _ => cases h

theorem runCommands_cons_of_next {i : Instr} {s t : State} (h : exec i s = .next t) (is : List Instr) :
    runCommands (i :: is) s = runCommands is t := by
  rw [runCommands, h]

/-- What a list of feeding commands feeds is what its first feeds and then what the rest feed. -/
theorem exists_fedBytes_of_cons {i : Instr} {is : List Instr} {m : List Byte} (h : fedByAll (i :: is) = some m) :
    ∃ x y, fedBytes i = some x ∧ fedByAll is = some y ∧ m = x ++ y := by
  rw [fedByAll] at h
  split at h
  · rename_i x y hx hy
    cases h
    exact ⟨x, y, hx, hy, rfl⟩
  · cases h

/-- Feeding commands after a command that ended with OK: their bytes are fed, even if there are none. -/
theorem runCommands_of_fedByAll {is : List Instr} {m : List Byte} (h : fedByAll is = some m) {s : State}
    (hok : s.status.err = 0#4) : runCommands is s = .next (feed m s) := by
  induction is generalizing m s with
  | nil =>
    cases h
    simp only [runCommands, feed, crcFold, ← hok]
  | cons i rest ih =>
    obtain ⟨x, y, hx, hy, rfl⟩ := exists_fedBytes_of_cons h
    rw [runCommands_cons_of_next (exec_of_fedBytes hx s), ih hy rfl, feed_append]

/-- At least one feeding command: whatever ERR was, their bytes are fed. -/
theorem runCommands_of_fedByAll_of_ne_nil {is : List Instr} {m : List Byte} (h : fedByAll is = some m) (hne : is ≠ [])
    (s : State) : runCommands is s = .next (feed m s) := by
  obtain ⟨i, rest, rfl⟩ := List.exists_cons_of_ne_nil hne
  obtain ⟨x, y, hx, hy, rfl⟩ := exists_fedBytes_of_cons h
  rw [runCommands_cons_of_next (exec_of_fedBytes hx s), runCommands_of_fedByAll hy rfl, feed_append]

theorem fedByAll_map_crcByte (m : List Byte) : fedByAll (m.map .crcByte) = some m := by
  induction m with
  | nil => rfl
  | cons b rest ih => simp only [List.map_cons, fedByAll, fedBytes, ih, List.singleton_append]

/-! ### CRC_INIT and CRC_CHECK -/

theorem exec_crcInit (s : State) :
    exec .crcInit s = .next { s with crc := { s.crc with value := 0xFFFF#16 }, status := { s.status with err := 0#4 } } :=
  exec_eq_next_complete .crcInit s

theorem exec_crcCheck_of_eq {h : Half} {s : State} (heq : h = s.crc.value) :
    exec (.crcCheck h) s =
      .next { s with crc := { s.crc with expected := h, found := s.crc.value },
                     status := { s.status with err := 0#4, matched := true } } := by
  have hcode : checkResult h s.crc.value = .ok := if_pos heq
  have hmatch : matchFlag h s.crc.value = true := beq_iff_eq.mpr heq
  rw [exec_eq_next_complete, resultOf, writesOf, hcode, complete_ok, storeCheck, hmatch]
  rfl

theorem exec_crcCheck_of_ne {h : Half} {s : State} (hne : h ≠ s.crc.value) :
    exec (.crcCheck h) s =
      .next { s with crc := { s.crc with expected := h, found := s.crc.value },
                     status := { s.status with err := 3#4, sticky := true, matched := false } } := by
  have hcode : checkResult h s.crc.value = .checksumMismatch := if_neg hne
  have hmatch : matchFlag h s.crc.value = false := beq_eq_false_iff_ne.mpr hne
  rw [exec_eq_next_complete, resultOf, writesOf, hcode, complete_mismatch, storeCheck, hmatch]
  rfl

/-- CRC_CHECK always ends, and MATCH then says whether the trailer is the digest. -/
theorem exec_crcCheck_matched (h : Half) (s : State) :
    ∃ t, exec (.crcCheck h) s = .next t ∧ (t.status.matched = true ↔ h = s.crc.value) := by
  by_cases heq : h = s.crc.value
  · exact ⟨_, exec_crcCheck_of_eq heq, iff_of_true rfl heq⟩
  · exact ⟨_, exec_crcCheck_of_ne heq, iff_of_false Bool.false_ne_true heq⟩

/-! ### Illegal near words -/

/-- A word with CRC_BYTE's opcode and a nonzero H is illegal (spec/30_encoding.md R61). -/
theorem runCommand_of_crcByte_h_ne_zero {w : Word} (hop : opField w = 0x11#8) (hh : hField w ≠ 0#16) (s : State) :
    runCommand w s = .next { s with status := statusIllegal s } := by
  refine runCommand_of_illegal ((decode_mustBeZero_iff w).mpr ⟨.fb, ?_, ?_⟩) s
  · rw [← opField_toNat, hop]
    decide
  · exact beq_eq_false_iff_ne.mpr hh

/-- A word with the opcode of CRC_HALF or CRC_CHECK and a nonzero B is illegal (spec/30_encoding.md R61). -/
theorem runCommand_of_fh_b_ne_zero {w : Word} {op : Byte} (hfh : op.toNat ∈ formatOpcodes .fh) (hop : opField w = op)
    (hb : bField w ≠ 0#8) (s : State) : runCommand w s = .next { s with status := statusIllegal s } := by
  refine runCommand_of_illegal ((decode_mustBeZero_iff w).mpr ⟨.fh, ?_, ?_⟩) s
  · rwa [← opField_toNat, hop]
  · exact beq_eq_false_iff_ne.mpr hb

/-! ### The frame's first byte -/

/-- The first frame byte (spec/42_sechdr.md R84) as the version shifted up and the acknowledge flags masked. -/
theorem version_append_ack (v : Nibble) (ack : Byte) :
    v ++ ack.extractLsb' 0 4 = (v.setWidth 8 <<< 4) ||| (ack &&& 0x0F#8) := by
  have hmask : (ack.extractLsb' 0 4).setWidth 8 = ack &&& 0x0F#8 := by
    refine BitVec.eq_of_getLsbD_eq fun k hk => ?_
    rw [BitVec.getLsbD_setWidth, BitVec.getLsbD_extractLsb', BitVec.getLsbD_and]
    interval_cases k <;> simp
  rw [← BitVec.setWidth_eq (v ++ ack.extractLsb' 0 4), BitVec.setWidth_append_eq_shiftLeft_setWidth_or, hmask]

end Sys2Proof.Proofs

/-! PROOFS. The statements of spec/41_crc.md: the CRC commands, the digest as a fold and as a polynomial remainder, the
residue check, single-bit errors, and the packet digest. -/

namespace Sys2Proof.Proofs

open Sys2Proof Sys2Proof.Machine Sys2Proof.Safety Sys2Proof.Laws

/-- Settles O24: CRC_INIT's completion stores the constant, which a second one stores again. -/
theorem crcInitStartsFreshDigest : Obligations.CrcInitStartsFreshDigest := by
  refine ⟨decode_encode .crcInit, exec_crcInit, fun s t u ht hu => ?twice⟩
  case twice =>
    rw [exec_crcInit] at ht
    cases ht
    rw [exec_crcInit] at hu
    cases hu
    rfl

/-- Settles O25: the word is CRC_BYTE's encoding, and the command feeds its one byte. -/
theorem crcByteFoldsOneByte : Obligations.CrcByteFoldsOneByte :=
  ⟨fun b => (congrArg decode (imm8_word b 0x11)).trans (decode_encode (.crcByte b)), exec_crcByte,
    fun _ s hop hh => runCommand_of_crcByte_h_ne_zero hop hh s, by decide, by decide⟩

/-- Settles O26: CRC_HALF feeds two bytes, and so do two CRC_BYTE. -/
theorem crcHalfFoldsTwoBytes : Obligations.CrcHalfFoldsTwoBytes := by
  refine ⟨fun h => (congrArg decode (imm16_word h 0x12)).trans (decode_encode (.crcHalf h)), exec_crcHalf,
    fun h s => ?asTwoBytes, fun w s hop hb => runCommand_of_fh_b_ne_zero (by decide) hop hb s, fun s hs => ?specExample⟩
  case asTwoBytes =>
    have hfed := fedByAll_map_crcByte [h.extractLsb' 8 8, h.extractLsb' 0 8]
    exact (exec_crcHalf h s).trans (runCommands_of_fedByAll_of_ne_nil hfed (List.cons_ne_nil _ _) s).symm
  case specExample =>
    refine ⟨_, exec_crcHalf 0x1234 s, ?_⟩
    have hvector : crcFold 0xFFFF#16 [(0x1234 : Half).extractLsb' 8 8, (0x1234 : Half).extractLsb' 0 8] = 0x0EC9#16 := by
      decide +kernel
    rw [feed_crc_value, hs]
    exact hvector

/-- Settles O27: the two ends of CRC_CHECK are those of `checkResult`. -/
theorem crcCheckComparesWithTrailer : Obligations.CrcCheckComparesWithTrailer := by
  refine ⟨fun h => (congrArg decode (imm16_word h 0x13)).trans (decode_encode (.crcCheck h)),
    fun h s => exec_crcCheck_of_eq, fun h s => exec_crcCheck_of_ne,
    fun w s hop hb => runCommand_of_fh_b_ne_zero (by decide) hop hb s, fun s hs => ⟨?matching, ?differing⟩⟩
  case matching =>
    have hinfo : (0x29B1#16 ++ 0x29B1#16 : Word) = 0x29B129B1#32 := by decide
    refine ⟨_, exec_crcCheck_of_eq hs.symm, rfl, rfl, ?_⟩
    rw [readReg, hs]
    exact hinfo
  case differing =>
    have hinfo : (0x29B0#16 ++ 0x29B1#16 : Word) = 0x29B029B1#32 := by decide
    have hne : 0x29B0#16 ≠ s.crc.value := by rw [hs]; decide
    refine ⟨_, exec_crcCheck_of_ne hne, rfl, rfl, rfl, ?_⟩
    rw [readReg, hs]
    exact hinfo

/-- Settles O28: folding is reduction because one shift multiplies by `x` modulo the generator (`map_polyOf_crcShift`). -/
theorem crcIsPolynomialRemainder : Obligations.CrcIsPolynomialRemainder :=
  polyOf_crcFold

/-- Settles O29: the table's row of the high byte decides, and only two rows give their own byte back. -/
theorem zeroByteFixedPoints : Obligations.ZeroByteFixedPoints := by
  intro c
  constructor
  · rw [← half_eq_append c]
    exact eq_of_crcUpdate_zero_eq_self
  · rintro (rfl | rfl) <;> decide

/-- Settles O30: a list of feeding commands feeds the concatenation of their bytes, whatever the split. -/
theorem digestIsIncremental : Obligations.DigestIsIncremental :=
  ⟨fun _ => rfl, fun _ _ _ => rfl, fun _ => rfl, crcFold_append, rfl, by decide +kernel,
    fun _ _ s hfed hne => runCommands_of_fedByAll_of_ne_nil hfed hne s⟩

/-- Settles O31: two bytes take a register to 0 exactly when they are its own (`crcUpdate_bytes_eq_zero_iff`). -/
theorem residueCheckEqualsCrcCheck : Obligations.ResidueCheckEqualsCrcCheck := by
  have hresidue (c : Half) : crcFold c [c.extractLsb' 8 8, c.extractLsb' 0 8] = 0x0000#16 :=
    (crcUpdate_bytes_eq_zero_iff c c).mpr rfl
  refine ⟨fun m => ?fold, fun m s hs => ⟨?half, ?bytes⟩, fun h s => ?equivalence, by decide +kernel, by decide +kernel⟩
  case fold => exact (crcFold_append _ _ _).trans (hresidue (crc16 m))
  case half =>
    rw [← hs]
    exact ⟨_, exec_crcHalf _ s, hresidue s.crc.value⟩
  case bytes =>
    have hfed := fedByAll_map_crcByte [(crc16 m).extractLsb' 8 8, (crc16 m).extractLsb' 0 8]
    refine ⟨_, runCommands_of_fedByAll_of_ne_nil hfed (List.cons_ne_nil _ _) s, ?_⟩
    rw [← hs]
    exact hresidue s.crc.value
  case equivalence =>
    obtain ⟨u, hu, hmatched⟩ := exec_crcCheck_matched h s
    exact ⟨_, u, exec_crcHalf h s, hu, (crcUpdate_bytes_eq_zero_iff s.crc.value h).trans hmatched.symm⟩

/-- Settles O32: updates are one-to-one in the byte and in the register (`crcFold_flipBit_ne`). -/
theorem singleBitFlipIsDetected : Obligations.SingleBitFlipIsDetected := by
  intro m k j hk hj
  have hflip : crc16 (flipBit m k j) ≠ crc16 m := crcFold_flipBit_ne m hk hj crcInitValue
  refine ⟨hflip, fun s hs => ⟨_, exec_crcCheck_of_ne ?_, rfl, rfl⟩⟩
  rw [hs]
  exact hflip.symm

/-- Settles O33: CRC_INIT starts the fold at 0xFFFF, and the bytes fed are those that SH_PACK left in the frame registers. -/
theorem packetDigestInWireOrder : Obligations.PacketDigestInWireOrder := by
  intro s primary payload hver
  have hcode : packResult s = .ok := if_pos hver
  refine ⟨setResult .ok (storeShBytes (shPackBytes (shFieldsOf s)) s), ?pack, ?digest⟩
  case pack => rw [exec_eq_next_complete, resultOf, hcode]; rfl
  case digest =>
    rw [← version_append_ack]
    exact ⟨_, (runCommands_cons_of_next (exec_crcInit _) _).trans
      (runCommands_of_fedByAll (fedByAll_map_crcByte _) rfl), rfl, _, exec_crcCheck_of_eq rfl, rfl, rfl⟩

end Sys2Proof.Proofs

/-! PROOFS. The secondary-header functions as arithmetic on bytes and as each other's inverses (spec/42_sechdr.md R84, R87,
R89), the operands as the host reads them, and the whole effect of SH_PACK and SH_UNPACK (R86, R88). -/

namespace Sys2Proof.Proofs

open Sys2Proof Sys2Proof.Machine Sys2Proof.Safety Sys2Proof.Laws

/-! ### Fields and bytes -/

theorem firstByte_eq_ofNat (h : Half) : firstByte h = BitVec.ofNat 8 (h.toNat / 256) := by
  refine BitVec.eq_of_toNat_eq ?_
  rw [firstByte, BitVec.extractLsb'_toNat, Nat.shiftRight_eq_div_pow, BitVec.toNat_ofNat]

theorem secondByte_eq_ofNat (h : Half) : secondByte h = BitVec.ofNat 8 h.toNat := by
  refine BitVec.eq_of_toNat_eq ?_
  rw [secondByte, BitVec.extractLsb'_toNat, Nat.shiftRight_zero, BitVec.toNat_ofNat]

/-- Two bytes in wire order as a big-endian number (spec/42_sechdr.md R87). -/
theorem byte_append_eq_ofNat (hi lo : Byte) : hi ++ lo = BitVec.ofNat 16 (hi.toNat * 256 + lo.toNat) := by
  refine BitVec.eq_of_toNat_eq ?_
  rw [BitVec.toNat_append, ← Nat.shiftLeft_add_eq_or_of_lt lo.isLt, Nat.shiftLeft_eq, BitVec.toNat_ofNat]
  omega

theorem upperNibble_eq_ofNat (b : Byte) : b.extractLsb' 4 4 = BitVec.ofNat 4 (b.toNat / 16) := by
  rw [← upperNibble_toNat, BitVec.ofNat_toNat, BitVec.setWidth_eq]

/-- A zero nibble over a byte's low nibble is the byte under the low nibble's mask: `version_append_ack` of version 0. -/
theorem zero_append_lowerNibble (b : Byte) : 0#4 ++ b.extractLsb' 0 4 = b &&& 0x0F#8 := by
  rw [version_append_ack, BitVec.setWidth_zero, BitVec.zero_shiftLeft, BitVec.zero_or]

/-- The supported version is a known one (spec/00_scope.md R6). -/
theorem verKnownFlag_pusVersion {p : Params} (h : p.wellFormed = true) : verKnownFlag p p.pusVersion = true := by
  rw [Params.wellFormed, Bool.and_eq_true] at h
  exact h.right

/-! ### Packing and unpacking as functions -/

theorem shPackBytes_eq (f : ShFields) :
    shPackBytes f = ⟨(f.version.setWidth 8 <<< 4) ||| (f.ack &&& 0x0F#8), f.service, f.subservice,
      BitVec.ofNat 8 (f.sourceId.toNat / 256), BitVec.ofNat 8 f.sourceId.toNat⟩ := by
  rw [shPackBytes, version_append_ack, firstByte_eq_ofNat, secondByte_eq_ofNat]

theorem shUnpackFields_eq (b : ShBytes) :
    shUnpackFields b = ⟨BitVec.ofNat 4 (b.b0.toNat / 16), b.b0 &&& 0x0F#8, b.b1, b.b2,
      BitVec.ofNat 16 (b.b3.toNat * 256 + b.b4.toNat)⟩ := by
  rw [shUnpackFields, upperNibble_eq_ofNat, zero_append_lowerNibble, byte_append_eq_ofNat]

/-- Unpacking a packed frame loses only the high nibble of the acknowledge flags (spec/42_sechdr.md R89). -/
theorem shUnpackFields_shPackBytes (f : ShFields) :
    shUnpackFields (shPackBytes f) = { f with ack := f.ack &&& 0x0F#8 } := by
  have hversion : (f.version ++ f.ack.extractLsb' 0 4).extractLsb' 4 4 = f.version := BitVec.extractLsb'_append_eq_left
  have hack : (f.version ++ f.ack.extractLsb' 0 4).extractLsb' 0 4 = f.ack.extractLsb' 0 4 :=
    BitVec.extractLsb'_append_eq_right
  have hsource : firstByte f.sourceId ++ secondByte f.sourceId = f.sourceId := half_eq_append f.sourceId
  rw [shUnpackFields, shPackBytes, hversion, hack, hsource, zero_append_lowerNibble]

/-- Packing the fields of a frame gives that frame (spec/42_sechdr.md R89). -/
theorem shPackBytes_shUnpackFields (b : ShBytes) : shPackBytes (shUnpackFields b) = b := by
  have hlow : (0#4 ++ b.b0.extractLsb' 0 4).extractLsb' 0 4 = b.b0.extractLsb' 0 4 := BitVec.extractLsb'_append_eq_right
  have hb0 : b.b0.extractLsb' 4 4 ++ b.b0.extractLsb' 0 4 = b.b0 :=
    (BitVec.extractLsb'_append_extractLsb'_eq_extractLsb' rfl).trans BitVec.extractLsb'_eq_self
  have hb3 : firstByte (b.b3 ++ b.b4) = b.b3 := BitVec.extractLsb'_append_eq_left
  have hb4 : secondByte (b.b3 ++ b.b4) = b.b4 := BitVec.extractLsb'_append_eq_right
  rw [shPackBytes, shUnpackFields, hlow, hb0, hb3, hb4]

/-! ### The operands as the host reads them -/

theorem shFieldsOf_eq_of_readReg {s : State} {v w : Word} (hfields : readReg .SH_FIELDS s = v)
    (hsource : readReg .SH_SRCID s = w) :
    shFieldsOf s = ⟨v.extractLsb' 8 4, v.extractLsb' 0 8, v.extractLsb' 16 8, v.extractLsb' 24 8, w.extractLsb' 0 16⟩ := by
  subst hfields hsource
  simp [shFieldsOf]

theorem shBytesOf_eq_of_readReg {s : State} {v w : Word} (h0 : readReg .SH_FRAME0 s = v) (h1 : readReg .SH_FRAME1 s = w) :
    shBytesOf s = ⟨lane v 0, lane v 1, lane v 2, lane v 3, lane w 0⟩ := by
  subst h0 h1
  simp [shBytesOf, lane]

theorem readReg_shFields_eq (s : State) :
    readReg .SH_FIELDS s = (shFieldsOf s).subservice ++ (shFieldsOf s).service ++ 0#4 ++ (shFieldsOf s).version ++
      (shFieldsOf s).ack := rfl

theorem readReg_shSrcid_eq (s : State) : readReg .SH_SRCID s = 0#16 ++ (shFieldsOf s).sourceId := rfl

theorem readReg_shFrame0_eq (s : State) :
    readReg .SH_FRAME0 s = frameWord (shBytesOf s).b0 (shBytesOf s).b1 (shBytesOf s).b2 (shBytesOf s).b3 := rfl

theorem readReg_shFrame1_eq (s : State) : readReg .SH_FRAME1 s = (shBytesOf s).b4 ++ 0#24 := rfl

/-! ### The commands -/

/-- `s` after an SH_PACK of the supported version: the packed operands in the frame registers, and ERR 0. -/
def packed (s : State) : State := setResult .ok (storeShBytes (shPackBytes (shFieldsOf s)) s)

/-- `s` after SH_UNPACK: the fields of the frame in the field registers, VER_KNOWN by the version, and ERR 0. -/
def unpacked (s : State) : State := setResult .ok (storeShFields (shUnpackFields (shBytesOf s)) s)

@[simp] theorem shBytesOf_packed (s : State) : shBytesOf (packed s) = shPackBytes (shFieldsOf s) := rfl
@[simp] theorem packed_params (s : State) : (packed s).params = s.params := rfl

@[simp] theorem shFieldsOf_unpacked (s : State) : shFieldsOf (unpacked s) = shUnpackFields (shBytesOf s) := rfl

theorem unpacked_verKnown (s : State) : (unpacked s).status.verKnown = verKnownFlag s.params (unpacked s).sh.version := rfl

theorem exec_shPack_of_version_eq {s : State} (h : s.sh.version = s.params.pusVersion) :
    exec .shPack s = .next (packed s) := by
  have hcode : packResult s = .ok := if_pos h
  rw [exec_eq_next_complete, resultOf, hcode]
  rfl

theorem exec_shPack_of_version_ne {s : State} (h : s.sh.version ≠ s.params.pusVersion) :
    exec .shPack s = .next { s with status := { s.status with err := 2#4, sticky := true } } := by
  have hcode : packResult s = .unsupportedVersion := if_neg h
  rw [exec_eq_next_complete, resultOf, hcode]
  rfl

theorem exec_shUnpack (s : State) : exec .shUnpack s = .next (unpacked s) :=
  exec_eq_next_complete .shUnpack s

theorem eq_unpacked_of_exec {s t : State} (h : exec .shUnpack s = .next t) : t = unpacked s := by
  rw [exec_shUnpack] at h
  cases h
  rfl

theorem runCommands_pair_of_next {i j : Instr} {s t u : State} (hi : exec i s = .next t) (hj : exec j t = .next u) :
    runCommands [i, j] s = .next u :=
  (runCommands_cons_of_next hi [j]).trans (runCommands_cons_of_next hj [])

/-- Whether SH_PACK accepts what SH_UNPACK left: the version on the wire is the supported one (spec/42_sechdr.md R89). -/
theorem unpacked_version_eq_iff (s : State) (p : Nibble) :
    (unpacked s).sh.version = p ↔ s.sh.b0.toNat / 16 = p.toNat := by
  rw [← BitVec.toNat_inj, ← upperNibble_toNat]
  rfl

/-- After SH_PACK and SH_UNPACK the fields are the packed ones, the acknowledge flags without their high nibble. -/
theorem shFieldsOf_unpacked_packed (s : State) :
    shFieldsOf (unpacked (packed s)) = { shFieldsOf s with ack := s.sh.ack &&& 0x0F#8 } :=
  shUnpackFields_shPackBytes (shFieldsOf s)

/-- SH_PACK of what SH_UNPACK left writes the frame that was there. -/
theorem shBytesOf_packed_unpacked (s : State) : shBytesOf (packed (unpacked s)) = shBytesOf s :=
  shPackBytes_shUnpackFields (shBytesOf s)

/-- SH_UNPACK and then SH_PACK leave the frame as it was, whether SH_PACK accepts the version or not. -/
theorem exists_runCommands_shUnpack_shPack (s : State) :
    ∃ t, runCommands [.shUnpack, .shPack] s = .next t ∧ shBytesOf t = shBytesOf s ∧
      t.status.err = if s.sh.b0.toNat / 16 = s.params.pusVersion.toNat then 0#4 else 2#4 := by
  have hiff := unpacked_version_eq_iff s s.params.pusVersion
  by_cases hver : s.sh.b0.toNat / 16 = s.params.pusVersion.toNat
  · rw [if_pos hver]
    exact ⟨_, runCommands_pair_of_next (exec_shUnpack s) (exec_shPack_of_version_eq (hiff.mpr hver)),
      shBytesOf_packed_unpacked s, rfl⟩
  · rw [if_neg hver]
    exact ⟨_, runCommands_pair_of_next (exec_shUnpack s) (exec_shPack_of_version_ne (mt hiff.mp hver)), rfl, rfl⟩

end Sys2Proof.Proofs

/-! PROOFS. The statements of spec/42_sechdr.md: SH_PACK, SH_UNPACK, and that each undoes the other. -/

namespace Sys2Proof.Proofs

open Sys2Proof Sys2Proof.Machine Sys2Proof.Safety Sys2Proof.Laws

/-- Settles O35: the two ends of SH_PACK are those of `packResult`; after reset the version is 0. -/
theorem shPackWritesFrame : Obligations.ShPackWritesFrame := by
  refine ⟨decode_encode .shPack, fun s hver => ?supported, fun s => exec_shPack_of_version_ne,
    fun p hp => ⟨_, exec_shPack_of_version_ne hp.symm, rfl⟩, fun p hp => ⟨_, exec_shPack_of_version_eq hp.symm, rfl⟩,
    fun s hpus hfields hsource => ?specExample⟩
  case supported =>
    rw [exec_shPack_of_version_eq hver, packed, shPackBytes_eq]
    rfl
  case specExample =>
    have hoperands := shFieldsOf_eq_of_readReg hfields hsource
    have hversion : s.sh.version = 2#4 := congrArg ShFields.version hoperands
    have hframe : shBytesOf (packed s) = ⟨0x2F, 0x11, 0x01, 0x00, 0x00⟩ := by
      rw [shBytesOf_packed, hoperands]
      decide
    refine ⟨_, exec_shPack_of_version_eq (hversion.trans hpus.symm), ?_, ?_, rfl⟩
    · rw [readReg_shFrame0_eq, hframe]
      decide
    · rw [readReg_shFrame1_eq, hframe]
      decide

/-- Settles O36: SH_UNPACK always completes with OK; what it leaves is `shUnpackFields` of the frame. -/
theorem shUnpackReadsFrame : Obligations.ShUnpackReadsFrame := by
  refine ⟨decode_encode .shUnpack, fun s v hv => ?fields, fun s t _ hver => ⟨_, exec_shPack_of_version_ne hver, rfl⟩,
    fun s t ht => ?ackHighNibble, fun s hknown h0 h1 => ?specExample⟩
  case fields =>
    rw [exec_shUnpack, unpacked, shUnpackFields_eq, hv]
    rfl
  case ackHighNibble =>
    rw [eq_unpacked_of_exec ht]
    exact BitVec.extractLsb'_append_eq_left
  case specExample =>
    have hfields : shFieldsOf (unpacked s) = ⟨0xF, 0x03, 0x05, 0x06, 0x0708⟩ := by
      rw [shFieldsOf_unpacked, shBytesOf_eq_of_readReg h0 h1]
      decide
    have hversion : (unpacked s).sh.version = 0xF#4 := congrArg ShFields.version hfields
    refine ⟨_, exec_shUnpack s, ?_, ?_, ?_, rfl⟩
    · rw [readReg_shFields_eq, hfields]
      decide
    · rw [readReg_shSrcid_eq, hfields]
      decide
    · rw [unpacked_verKnown, hversion, verKnownFlag, hknown]
      decide

/-- Settles O37: the commands undo each other as the functions do, and the supported version is a known one (R6). -/
theorem packUnpackRoundTrip : Obligations.PackUnpackRoundTrip := by
  refine ⟨shUnpackFields_shPackBytes, shPackBytes_shUnpackFields, fun s hwf hver => ?packThenUnpack,
    fun s => ?unpackThenPack⟩
  case packThenUnpack =>
    obtain ⟨hversion, hack, hservice, hsubservice, hsource⟩ := ShFields.mk.inj (shFieldsOf_unpacked_packed s)
    refine ⟨_, runCommands_pair_of_next (exec_shPack_of_version_eq hver) (exec_shUnpack _), hversion, hack, hservice,
      hsubservice, hsource, ?_⟩
    have hsupported : (unpacked (packed s)).sh.version = s.params.pusVersion := hversion.trans hver
    rw [unpacked_verKnown, packed_params, hsupported]
    exact verKnownFlag_pusVersion hwf
  case unpackThenPack =>
    obtain ⟨t, ht, hframe, herr⟩ := exists_runCommands_shUnpack_shPack s
    obtain ⟨h0, h1, h2, h3, h4⟩ := ShBytes.mk.inj hframe
    exact ⟨t, ht, h0, h1, h2, h3, h4, herr⟩

end Sys2Proof.Proofs

/-! PROOFS. `civilFromDays` (spec/43_timestamp.md R93) against the calendar counted out year by year and month by month:
the day count of every date of the range gives that date back, and every day count is the day count of a date. -/

namespace Sys2Proof.Proofs

open Sys2Proof Sys2Proof.Machine Sys2Proof.Safety

/-! ### Years -/

theorem isLeapYear_iff (y : Nat) : isLeapYear y = true ↔ y % 4 = 0 ∧ (y % 100 ≠ 0 ∨ y % 400 = 0) := by
  simp [isLeapYear]

/-- The leap day of a year. -/
def leapDay (y : Nat) : Nat := if isLeapYear y then 1 else 0

/-- The leap years among 1 to `y`. -/
def leapYearsTo (y : Nat) : Nat := y / 4 + y / 400 - y / 100

/-- A year in parts: a cycle of 400 years, a century of it, a group of four years of that, and a year of the group. -/
theorem exists_year_parts (y : Nat) : ∃ e c q r, c < 4 ∧ q < 25 ∧ r < 4 ∧ y = 400 * e + 100 * c + 4 * q + r :=
  ⟨y / 400, y % 400 / 100, y % 100 / 4, y % 4, by omega, by omega, by omega, by omega⟩

section YearParts

variable (e : Nat) {c q r : Nat} (hc : c < 4) (hq : q < 25) (hr : r < 4)
include hc hq hr

theorem leapYearsTo_parts : leapYearsTo (400 * e + 100 * c + 4 * q + r) = 97 * e + 24 * c + q := by
  rw [leapYearsTo]
  omega

/-- The year after a group of four is a leap year, unless it ends a century that does not end the cycle. -/
theorem leapDay_parts_succ :
    leapDay (400 * e + 100 * c + 4 * q + r + 1) = if r = 3 ∧ (q < 24 ∨ c = 3) then 1 else 0 := by
  refine if_congr ((isLeapYear_iff _).trans ?_) rfl rfl
  omega

end YearParts

theorem leapYearsTo_succ (y : Nat) : leapYearsTo (y + 1) = leapYearsTo y + leapDay (y + 1) := by
  obtain ⟨e, c, q, r, hc, hq, hr, rfl⟩ := exists_year_parts y
  rw [leapYearsTo_parts e hc hq hr, leapDay_parts_succ e hc hq hr, leapYearsTo]
  split <;> omega

theorem leapDay_le (y : Nat) : leapDay y ≤ 1 := by
  rw [leapDay]
  split <;> decide

theorem yearLength_eq (y : Nat) : (if isLeapYear y then 366 else 365) = 365 + leapDay y := by
  rw [leapDay]
  split <;> rfl

/-- Days from 1958-01-01 to the first day of the year 1958 + `n`; 474 leap years came before 1958. -/
theorem daysInYears_add (n : Nat) : daysInYears n + 474 = 365 * n + leapYearsTo (1957 + n) := by
  induction n with
  | zero => rfl
  | succ n ih =>
    have hstep := leapYearsTo_succ (1957 + n)
    have hyear : 1957 + n + 1 = 1958 + n := by omega
    rw [hyear] at hstep
    rw [daysInYears, yearLength_eq, ← Nat.add_assoc 1957, hyear, hstep]
    omega

/-! ### Months -/

theorem daysInMonths_two (y : Nat) : daysInMonths y 2 = 59 + leapDay y := by
  simp only [daysInMonths, monthLength, leapDay]
  split <;> rfl

theorem monthLength_february (y : Nat) : monthLength y 2 = 28 + leapDay y := by
  simp only [monthLength, leapDay]
  split <;> rfl

/-- The lengths of the months from March on, from the multiples of 153/5 days that R93 counts with. -/
theorem monthLength_add_three (y : Nat) {mp : Nat} (h : mp < 10) :
    monthLength y (mp + 3) = (153 * (mp + 1) + 2) / 5 - (153 * mp + 2) / 5 := by
  interval_cases mp <;> rfl

theorem daysInMonths_add_two (y : Nat) {mp : Nat} (h : mp ≤ 10) :
    daysInMonths y (mp + 2) = 59 + leapDay y + (153 * mp + 2) / 5 := by
  induction mp with
  | zero => exact daysInMonths_two y
  | succ mp ih =>
    have hlength := monthLength_add_three y (mp := mp) (by omega)
    rw [Nat.add_right_comm, daysInMonths, ih (by omega), hlength]
    omega

/-! ### Years that begin in March -/

/-- Days from 0000-03-01 to the first of March of a year. -/
def marchYearStart (y : Nat) : Nat := 365 * y + leapYearsTo y

/-- The second half of `civilFromDays`: the date of a day of a year that begins in March. -/
def marchDate (y doy : Int) : CivilDate :=
  let mp := (5 * doy + 2) / 153
  let mo := if mp < 10 then mp + 3 else mp - 9
  ⟨if mo ≤ 2 then y + 1 else y, mo, doy - (153 * mp + 2) / 5 + 1⟩

/-- The year of the 400-year cycle as R93 computes it from the day of the cycle. R93 takes 1460 days where a group of four
years has 1461, which is right because the days it counts too many all fall in the last year of a group. -/
theorem yearOfEra_eq {c q r k : Int} (hc : 0 ≤ c ∧ c < 4) (hq : 0 ≤ q ∧ q < 25) (hr : 0 ≤ r ∧ r < 4)
    (hk : 0 ≤ k ∧ (k < 365 ∨ k = 365 ∧ r = 3 ∧ (q < 24 ∨ q = 24 ∧ c = 3))) {doe : Int}
    (hdoe : doe = 36524 * c + 1461 * q + 365 * r + k) :
    (doe - doe / 1460 + doe / 36524 - doe / 146096) / 365 = 100 * c + 4 * q + r := by
  obtain ⟨hk0, hk | ⟨hk, hr3, hq | ⟨hq, hc⟩⟩⟩ := hk
  · have hcentury : doe / 36524 = c := by omega
    have hcycle : doe / 146096 = 0 := by omega
    omega
  · have hcentury : doe / 36524 = c := by omega
    have hcycle : doe / 146096 = 0 := by omega
    omega
  · omega

/-- The three quantities of the first half of R93, and what it makes of them. -/
theorem civilFromDays_eq_marchDate {z era doe yoe : Int} (hera : (z + 719468) / 146097 = era)
    (hdoe : z + 719468 - era * 146097 = doe)
    (hyoe : (doe - doe / 1460 + doe / 36524 - doe / 146096) / 365 = yoe) :
    civilFromDays z = marchDate (yoe + era * 400) (doe - (365 * yoe + yoe / 4 - yoe / 100)) := by
  subst hera hdoe hyoe
  rfl

/-- The first half of `civilFromDays` finds the year, from March on, and the day of it. Only a year before a leap year has a
366th day. -/
theorem civilFromDays_march {y doy : Nat} (h : doy < 365 + leapDay (y + 1)) :
    civilFromDays ((marchYearStart y + doy : Nat) - 719468) = marchDate y doy := by
  obtain ⟨e, c, q, r, hc, hq, hr, rfl⟩ := exists_year_parts y
  have hlast : doy < 365 ∨ doy = 365 ∧ r = 3 ∧ (q < 24 ∨ q = 24 ∧ c = 3) := by
    rw [leapDay_parts_succ e hc hq hr] at h
    split at h <;> omega
  have hyoe := yearOfEra_eq (c := c) (q := q) (r := r) (k := doy) (by omega) (by omega) (by omega) (by omega) rfl
  have hgroup : (100 * c + 4 * q + r : Int) / 4 = 25 * c + q := by omega
  have hcentury : (100 * c + 4 * q + r : Int) / 100 = c := by omega
  rw [marchYearStart, leapYearsTo_parts e hc hq hr]
  refine (civilFromDays_eq_marchDate (era := e) ?_ ?_ hyoe).trans ?_
  · clear hyoe
    omega
  · clear hyoe
    omega
  · rw [hgroup, hcentury]
    congr 1
    · push_cast
      ring
    · ring

/-- The second half of `civilFromDays` on the day `k` of the month `mp`, counted from March: 153 days are five months. -/
theorem marchDate_eq (y : Int) {mp k : Nat} (hmp : mp < 12)
    (hk : (153 * mp + 2) / 5 + k < (153 * (mp + 1) + 2) / 5) :
    marchDate y ((153 * mp + 2) / 5 + k : Nat) =
      ⟨if (mp : Int) < 10 then y else y + 1, if (mp : Int) < 10 then mp + 3 else mp - 9, k + 1⟩ := by
  have hlow : 153 * mp ≤ 5 * ((153 * mp + 2) / 5 + k) + 2 := by omega
  have hhigh : 5 * ((153 * mp + 2) / 5 + k) + 2 < 153 * (mp + 1) := by omega
  have hmonth : (5 * (((153 * mp + 2) / 5 + k : Nat) : Int) + 2) / 153 = mp := by
    generalize (153 * mp + 2) / 5 + k = doy at hlow hhigh ⊢
    omega
  have hmonthFirst : (153 * (mp : Int) + 2) / 5 = ((153 * mp + 2) / 5 : Nat) := by omega
  simp only [marchDate, hmonth, hmonthFirst]
  by_cases hearly : (mp : Int) < 10
  · have hmo : ¬ (mp : Int) + 3 ≤ 2 := by omega
    simp only [hearly, if_true, if_neg hmo]
    congr 1
    omega
  · have hmo : (mp : Int) - 9 ≤ 2 := by omega
    simp only [hearly, if_false, if_pos hmo]
    congr 1
    omega

/-! ### Dates and day counts -/

/-- A day count since 1958-01-01, and since 0000-03-01 by years that begin in March: 715085 days lie between the two starts. -/
theorem dayCountOf_add_of_march_on {y mp dd : Nat} (hy : 1958 ≤ y) (hmp : mp < 10) :
    dayCountOf y (mp + 3) dd + 715085 = marchYearStart y + ((153 * mp + 2) / 5 + (dd - 1)) := by
  have hyears := daysInYears_add (y - 1958)
  have hmonths := daysInMonths_add_two y (mp := mp) (by omega)
  have hleap := leapYearsTo_succ (y - 1)
  have hy1 : 1957 + (y - 1958) = y - 1 := by omega
  have hy2 : y - 1 + 1 = y := by omega
  rw [hy1] at hyears
  rw [hy2] at hleap
  rw [dayCountOf, marchYearStart, Nat.add_sub_cancel (n := mp + 2) (m := 1), hmonths]
  omega

/-- January and February end the March year of the year before. -/
theorem dayCountOf_add_of_january_february {y mo dd : Nat} (hy : 1958 ≤ y) (hmo : mo = 1 ∨ mo = 2) :
    dayCountOf y mo dd + 715085 = marchYearStart (y - 1) + ((153 * (mo + 9) + 2) / 5 + (dd - 1)) := by
  have hyears := daysInYears_add (y - 1958)
  have hy1 : 1957 + (y - 1958) = y - 1 := by omega
  rw [hy1] at hyears
  have hmonths : daysInMonths y (mo - 1) + 306 = (153 * (mo + 9) + 2) / 5 := by
    obtain rfl | rfl := hmo <;> rfl
  rw [dayCountOf, marchYearStart]
  omega

/-- R93 gives a date of the range back from its day count. -/
theorem civilFromDays_dayCountOf {y mo dd : Nat} (h : ValidDate y mo dd) :
    civilFromDays (dayCountOf y mo dd - 4383) = ⟨y, mo, dd⟩ := by
  obtain ⟨hy, -, hmo1, hmo12, hdd1, hdd⟩ := h
  by_cases hmo : mo ≤ 2
  · have hlength : mo = 1 ∧ dd ≤ 31 ∨ mo = 2 ∧ dd ≤ 28 + leapDay (y - 1 + 1) := by
      obtain rfl | rfl : mo = 1 ∨ mo = 2 := by omega
      · exact .inl ⟨rfl, hdd⟩
      · rw [monthLength_february] at hdd
        rw [Nat.sub_add_cancel (by omega)]
        exact .inr ⟨rfl, hdd⟩
    have hleap := leapDay_le (y - 1 + 1)
    have hcount := dayCountOf_add_of_january_february (dd := dd) hy (by omega : mo = 1 ∨ mo = 2)
    have hz : (dayCountOf y mo dd : Int) - 4383 =
        (marchYearStart (y - 1) + ((153 * (mo + 9) + 2) / 5 + (dd - 1)) : Nat) - 719468 := by omega
    have hlate : ¬ ((mo + 9 : Nat) : Int) < 10 := by omega
    rw [hz, civilFromDays_march (by omega), marchDate_eq _ (by omega) (by omega), if_neg hlate, if_neg hlate]
    congr 1 <;> omega
  · obtain ⟨mp, rfl⟩ : ∃ mp, mo = mp + 3 := ⟨mo - 3, by omega⟩
    have hmp : mp < 10 := by omega
    rw [monthLength_add_three y hmp] at hdd
    have hcount := dayCountOf_add_of_march_on (dd := dd) hy hmp
    have hz : (dayCountOf y (mp + 3) dd : Int) - 4383 =
        (marchYearStart y + ((153 * mp + 2) / 5 + (dd - 1)) : Nat) - 719468 := by omega
    have hearly : (mp : Int) < 10 := by omega
    rw [hz, civilFromDays_march (by omega), marchDate_eq _ (by omega) (by omega), if_pos hearly, if_pos hearly]
    congr 1
    omega

/-- A sequence that starts at 0 steps over every number below one of its members: how a day count finds its year and then
its month. -/
theorem exists_le_lt_succ {f : Nat → Nat} (h0 : f 0 = 0) {n d : Nat} (h : d < f n) :
    ∃ k < n, f k ≤ d ∧ d < f (k + 1) := by
  induction n with
  | zero => omega
  | succ n ih =>
    by_cases hd : d < f n
    · obtain ⟨k, hk, hle, hlt⟩ := ih hd
      exact ⟨k, by omega, hle, hlt⟩
    · exact ⟨n, by omega, by omega, h⟩

theorem daysInMonths_twelve (y : Nat) : daysInMonths y 12 = 365 + leapDay y := by
  rw [daysInMonths_add_two y (mp := 10) (by decide)]
  omega

/-- Every day count of 16 bits is the day count of a date. -/
theorem exists_dayCountOf_eq {d : Nat} (h : d < 65536) : ∃ y mo dd, ValidDate y mo dd ∧ dayCountOf y mo dd = d := by
  have hrange : d < daysInYears 180 := by
    have hyears := daysInYears_add 180
    rw [show leapYearsTo (1957 + 180) = 518 from rfl] at hyears
    omega
  obtain ⟨n, hn, hyear, hnext⟩ := exists_le_lt_succ rfl hrange
  have hday : d - daysInYears n < daysInMonths (1958 + n) 12 := by
    rw [daysInYears, yearLength_eq] at hnext
    rw [daysInMonths_twelve]
    omega
  obtain ⟨k, hk, hmonth, hmonthNext⟩ := exists_le_lt_succ rfl hday
  rw [daysInMonths] at hmonthNext
  refine ⟨1958 + n, k + 1, d - daysInYears n - daysInMonths (1958 + n) k + 1, ⟨?_, ?_, ?_, ?_, ?_, ?_⟩, ?_⟩
  case refine_7 =>
    rw [dayCountOf, Nat.add_sub_cancel_left, Nat.add_sub_cancel, Nat.add_sub_cancel]
    omega
  all_goals omega

/-- R93 is the calendar: every day count gives a date of the range, and the date's day count is that count. -/
theorem civilFromDays_eq_date (d : Half) :
    ∃ y mo dd : Nat, ValidDate y mo dd ∧ dayCountOf y mo dd = d.toNat ∧ civilFromDays (daysSince1970 d) = ⟨y, mo, dd⟩ := by
  obtain ⟨y, mo, dd, hvalid, hcount⟩ := exists_dayCountOf_eq d.isLt
  refine ⟨y, mo, dd, hvalid, hcount, ?_⟩
  rw [← civilFromDays_dayCountOf hvalid, hcount]
  rfl

end Sys2Proof.Proofs

/-! PROOFS. The timestamp functions as arithmetic (spec/43_timestamp.md R91, R92, R94, R101), what a commit leaves in the
registers (R90, R97, R98), the frame words of TS_PACK (R104 to R106), and the whole effect of the three commands. -/

namespace Sys2Proof.Proofs

open Sys2Proof Sys2Proof.Machine Sys2Proof.Safety Sys2Proof.Laws

/-! ### Words of small numbers -/

theorem toNat_ofInt_of_lt {n : Nat} {i : Int} (h0 : 0 ≤ i) (h : i < (2 ^ n : Nat)) :
    ((BitVec.ofInt n i).toNat : Int) = i := by
  rw [BitVec.toNat_ofInt, Int.emod_eq_of_lt h0 h, Int.toNat_of_nonneg h0]

theorem toNat_ofNat_of_lt {n x : Nat} (h : x < 2 ^ n) : (BitVec.ofNat n x).toNat = x := by
  rw [BitVec.toNat_ofNat, Nat.mod_eq_of_lt h]

theorem toNat_ofInt_natCast {n x : Nat} (h : x < 2 ^ n) : (BitVec.ofInt n x).toNat = x := by
  rw [BitVec.ofInt_natCast, toNat_ofNat_of_lt h]

/-! ### UNIX time of a day and millisecond count -/

theorem daysSince1970_eq (d : Half) : daysSince1970 d = (d.toNat : Int) - 4383 := rfl

theorem unixSeconds_eq (d : Half) (m : Word) :
    unixSeconds d m = ((d.toNat : Int) - 4383) * 86400 + ((m.toNat / 1000 : Nat) : Int) := rfl

theorem unixNanos_eq (m : Word) : unixNanos m = m.toNat % 1000 * 1000000 := rfl

theorem daysSince1970_range (d : Half) : -4383 ≤ daysSince1970 d ∧ daysSince1970 d ≤ 61152 := by
  rw [daysSince1970_eq]
  omega

theorem unixSeconds_range (d : Half) {m : Word} (h : m.toNat ≤ 86399999) :
    -378691200 ≤ unixSeconds d m ∧ unixSeconds d m ≤ 5283619199 := by
  rw [unixSeconds_eq]
  omega

theorem unixNanos_le (m : Word) : unixNanos m ≤ 999000000 := by
  rw [unixNanos_eq]
  omega

/-- The 64-bit result of R91 does not overflow. -/
theorem toInt_ofInt_unixSeconds (d : Half) (m : Word) :
    (BitVec.ofInt 64 (unixSeconds d m)).toInt = unixSeconds d m := by
  rw [unixSeconds_eq]
  exact BitVec.toInt_ofInt_eq_self (by decide) (by omega) (by omega)

/-! ### The committed registers -/

/-- The two UNIX registers of a commit hold the UNIX seconds. -/
theorem pair64_committedOf (pf : Byte) (d : Half) (m : Word) :
    pair64 (committedOf pf d m).secHi (committedOf pf d m).secLo = BitVec.ofInt 64 (unixSeconds d m) :=
  BitVec.extractLsb'_append_extractLsb'

theorem committedOf_seconds (pf : Byte) (d : Half) (m : Word) :
    (pair64 (committedOf pf d m).secHi (committedOf pf d m).secLo).toInt = unixSeconds d m := by
  rw [pair64_committedOf, toInt_ofInt_unixSeconds]

theorem committedOf_nanos (pf : Byte) (d : Half) (m : Word) : (committedOf pf d m).ns.toNat = unixNanos m := by
  have hle := unixNanos_le m
  exact toNat_ofNat_of_lt (by omega)

theorem monthLength_le (y mo : Nat) : monthLength y mo ≤ 31 := by
  unfold monthLength
  split
  case h_2 => split <;> decide
  all_goals decide

/-- The calendar date of a commit is the date whose day count is the committed one. -/
theorem committedOf_date (pf : Byte) (d : Half) (m : Word) :
    ValidDate (committedOf pf d m).year.toNat (committedOf pf d m).month.toNat (committedOf pf d m).mday.toNat ∧
      dayCountOf (committedOf pf d m).year.toNat (committedOf pf d m).month.toNat (committedOf pf d m).mday.toNat =
        d.toNat := by
  obtain ⟨y, mo, dd, hvalid, hcount, hdate⟩ := civilFromDays_eq_date d
  have ⟨hy, hy2137, hmo, hmo12, hdd, hlength⟩ := hvalid
  have hlength31 := monthLength_le y mo
  simp only [committedOf, hdate]
  rw [toNat_ofInt_natCast (by omega), toNat_ofInt_natCast (by omega), toNat_ofInt_natCast (by omega)]
  exact ⟨hvalid, hcount⟩

theorem committedOf_timeOfDay (pf : Byte) (d : Half) {m : Word} (h : m.toNat ≤ 86399999) :
    (committedOf pf d m).hour.toNat = m.toNat / 1000 / 3600 ∧
      (committedOf pf d m).minute.toNat = m.toNat / 1000 % 3600 / 60 ∧
      (committedOf pf d m).second.toNat = m.toNat / 1000 % 60 := by
  simp only [committedOf, secondOfDay]
  refine ⟨toNat_ofNat_of_lt ?_, toNat_ofNat_of_lt ?_, toNat_ofNat_of_lt ?_⟩ <;> omega

/-- A commit leaves registers that agree with one another (R90). -/
theorem consistent_committedOf (pf : Byte) (d : Half) {m : Word} (h : m.toNat ≤ 86399999) :
    Consistent (committedOf pf d m) := by
  obtain ⟨hdate, hcount⟩ := committedOf_date pf d m
  obtain ⟨hhour, hminute, hsecond⟩ := committedOf_timeOfDay pf d h
  refine ⟨h, committedOf_seconds pf d m, committedOf_nanos pf d m, hdate, hcount, ?_⟩
  rw [hhour, hminute, hsecond]
  have hms : (committedOf pf d m).ms = m := rfl
  rw [hms]
  refine ⟨?_, ?_, ?_, ?_⟩ <;> omega

/-! ### UNIX time to a day and millisecond count -/

/-- R101 accepts the seconds of the days that a 16-bit day count holds. -/
theorem cdsFromUnix_of_range {sec : Int} {ns : Nat} (h : -378691200 ≤ sec ∧ sec ≤ 5283619199) (hns : ns ≤ 999999999) :
    ∃ d m, cdsFromUnix sec ns = some (d, m) ∧ (d.toNat : Int) = sec / 86400 + 4383 ∧
      (m.toNat : Int) = sec % 86400 * 1000 + ((ns / 1000000 : Nat) : Int) := by
  have hday : ¬ (sec / secondsPerDay - epochOffsetDays < 0 ∨ sec / secondsPerDay - epochOffsetDays > 65535) := by
    rw [secondsPerDay, epochOffsetDays]
    omega
  refine ⟨_, _, if_neg hday, ?_, ?_⟩
  · rw [toNat_ofInt_of_lt (by omega) (by omega), secondsPerDay, epochOffsetDays]
    omega
  · rw [secondsPerDay]
    exact toNat_ofInt_of_lt (by omega) (by omega)

theorem cdsFromUnix_of_not_range {sec : Int} (ns : Nat) (h : ¬ (-378691200 ≤ sec ∧ sec ≤ 5283619199)) :
    cdsFromUnix sec ns = none := by
  refine if_pos ?_
  rw [secondsPerDay, epochOffsetDays]
  omega

/-- The day and millisecond counts that R101 gives for an instant describe that instant, its nanoseconds cut to whole
milliseconds. -/
theorem unixTime_of_cds {sec : Int} {ns : Nat} {d : Half} {m : Word} (hns : ns ≤ 999999999)
    (hd : (d.toNat : Int) = sec / 86400 + 4383)
    (hm : (m.toNat : Int) = sec % 86400 * 1000 + ((ns / 1000000 : Nat) : Int)) :
    m.toNat ≤ 86399999 ∧ unixSeconds d m = sec ∧ unixNanos m = ns - ns % 1000000 := by
  rw [unixSeconds_eq, unixNanos_eq]
  refine ⟨?_, ?_, ?_⟩ <;> omega

/-- R101 undoes R91. -/
theorem cdsFromUnix_unixSeconds (d : Half) {m : Word} (h : m.toNat ≤ 86399999) :
    cdsFromUnix (unixSeconds d m) (unixNanos m) = some (d, m) := by
  have hle := unixNanos_le m
  obtain ⟨d', m', hcds, hd', hm'⟩ := cdsFromUnix_of_range (unixSeconds_range d h) (by omega : unixNanos m ≤ 999999999)
  rw [unixSeconds_eq] at hd' hm'
  rw [unixNanos_eq] at hm'
  have hday : d' = d := BitVec.eq_of_toNat_eq (by omega)
  have hms : m' = m := BitVec.eq_of_toNat_eq (by omega)
  rw [hcds, hday, hms]

/-! ### The two commit commands -/

/-- `s` after a command that commits a day and a millisecond count (R97). -/
def afterCommit (d : Half) (m : Word) (s : State) : State := setResult .ok (commitTimestamp d m s)

@[simp] theorem afterCommit_tsv (d : Half) (m : Word) (s : State) :
    (afterCommit d m s).tsv = committedOf s.params.pfield d m := rfl

theorem exec_tsConvert_of_operands {s : State} {d : Half} {m : Word} (hday : s.tsIn.day = d) (hms : s.tsIn.ms = m)
    (h : m.toNat ≤ 86399999) : exec .tsConvert s = .next (afterCommit d m s) := by
  subst hday hms
  have hcode : convertResult s.tsIn.ms = .ok := if_neg (Nat.not_lt.mpr h)
  rw [exec_eq_next_complete, resultOf, hcode]
  rfl

theorem exec_tsConvert_of_le {s : State} (h : s.tsIn.ms.toNat ≤ 86399999) :
    exec .tsConvert s = .next (afterCommit s.tsIn.day s.tsIn.ms s) :=
  exec_tsConvert_of_operands rfl rfl h

theorem exec_tsConvert_of_gt {s : State} (h : 86399999 < s.tsIn.ms.toNat) :
    exec .tsConvert s = .next { s with status := { s.status with err := 4#4, sticky := true } } := by
  have hcode : convertResult s.tsIn.ms = .range := if_pos h
  rw [exec_eq_next_complete, resultOf, hcode]
  rfl

theorem exec_tsFromUnix_of_cds {s : State} {d : Half} {m : Word} (hns : unixInNanos s ≤ 999999999)
    (hcds : cdsFromUnix (unixInSeconds s) (unixInNanos s) = some (d, m)) :
    exec .tsFromUnix s = .next (afterCommit d m s) := by
  have hnanos : ¬ nanosMax < unixInNanos s := Nat.not_lt.mpr hns
  have hcode : resultOf .tsFromUnix s = .ok := by simp [resultOf, hnanos, hcds]
  rw [exec_eq_next_complete, hcode, writesOf, hcds]
  rfl

theorem exec_tsFromUnix_of_refused {s : State}
    (h : ¬ (unixInNanos s ≤ 999999999 ∧ -378691200 ≤ unixInSeconds s ∧ unixInSeconds s ≤ 5283619199)) :
    exec .tsFromUnix s = .next { s with status := { s.status with err := 4#4, sticky := true } } := by
  have hrefused : nanosMax < unixInNanos s ∨ cdsFromUnix (unixInSeconds s) (unixInNanos s) = none := by
    by_cases hns : unixInNanos s ≤ 999999999
    · exact .inr (cdsFromUnix_of_not_range _ fun hsec => h ⟨hns, hsec⟩)
    · exact .inl (Nat.not_le.mp hns)
  have hcode : resultOf .tsFromUnix s = .range := if_pos hrefused
  rw [exec_eq_next_complete, hcode]
  rfl

/-- An instant in range is committed as the day and millisecond counts that describe it (R101, R103). -/
theorem exec_tsFromUnix_of_range {s : State} (hns : unixInNanos s ≤ 999999999)
    (hsec : -378691200 ≤ unixInSeconds s ∧ unixInSeconds s ≤ 5283619199) :
    ∃ d m, exec .tsFromUnix s = .next (afterCommit d m s) ∧ (d.toNat : Int) = unixInSeconds s / 86400 + 4383 ∧
      (m.toNat : Int) = unixInSeconds s % 86400 * 1000 + ((unixInNanos s / 1000000 : Nat) : Int) := by
  obtain ⟨d, m, hcds, hd, hm⟩ := cdsFromUnix_of_range hsec hns
  exact ⟨d, m, exec_tsFromUnix_of_cds hns hcds, hd, hm⟩

/-- The operand of TS_FROM_UNIX is the committed instant once the host has copied it there (R108). -/
theorem exec_tsFromUnix_of_seconds {s : State} {d : Half} {m : Word} (hm : m.toNat ≤ 86399999)
    (hseconds : unixInSeconds s = unixSeconds d m) (hnanos : unixInNanos s = unixNanos m) :
    exec .tsFromUnix s = .next (afterCommit d m s) := by
  have hle := unixNanos_le m
  refine exec_tsFromUnix_of_cds (by omega) ?_
  rw [hseconds, hnanos, cdsFromUnix_unixSeconds d hm]

/-- The start of 1958-01-01, whatever the p-field (R95). -/
theorem committedOf_1958 (pf : Byte) :
    committedOf pf 0#16 0#32 = ⟨pf, 0, 0, 0xE96DA180, 0xFFFFFFFF, 0, 1958, 1, 1, 0, 0, 0⟩ := rfl

/-- The start of 1970-01-01, whatever the p-field (R95). -/
theorem committedOf_1970 (pf : Byte) :
    committedOf pf 4383#16 0#32 = ⟨pf, 0x111F, 0, 0, 0, 0, 1970, 1, 1, 0, 0, 0⟩ := rfl

/-! ### Frames -/

/-- Bytes in wire order around a 16-bit field: the first register of both layouts (R104). -/
theorem frameWord_half (b0 b3 : Byte) (h : Half) : frameWord b0 (firstByte h) (secondByte h) b3 = b0 ++ h ++ b3 := by
  have hbytes : b0 ++ firstByte h ++ secondByte h = b0 ++ h := by
    conv_rhs => rw [← half_eq_append h, BitVec.append_assoc']
    rfl
  rw [frameWord, hbytes]

theorem lanes_append_byte (m : Word) (b : Byte) : frameWord (lane m 1) (lane m 2) (lane m 3) b = m.extractLsb' 0 24 ++ b := by
  simp only [frameWord, lane]
  iterate 2 rw [BitVec.extractLsb'_append_extractLsb'_eq_extractLsb' (by decide)]

theorem tsFrameWords_cds7 (pf : Byte) (d : Half) (m : Word) :
    tsFrameWords (tsFrameBytes .cds7 pf d m) = ⟨pf ++ d ++ m.extractLsb' 24 8, m.extractLsb' 0 24 ++ 0x00#8⟩ :=
  congrArg₂ TsFrame.mk (frameWord_half pf (lane m 0) d) (lanes_append_byte m 0x00#8)

theorem tsFrameWords_rsv8 (pf : Byte) (d : Half) (m : Word) :
    tsFrameWords (tsFrameBytes .rsv8 pf d m) = ⟨pf ++ d ++ 0x00#8, m⟩ :=
  congrArg₂ TsFrame.mk (frameWord_half pf 0x00#8 d) (frameWord_lanes m)

/-- `s` after a TS_PACK of a committed timestamp (R106). -/
def afterTsPack (s : State) : State :=
  setResult .ok (storeTsFrame (tsFrameWords (tsFrameBytes s.params.tsLayout s.tsv.pfield s.tsv.day s.tsv.ms)) s)

theorem exec_tsPack_of_valid {s : State} (h : s.status.tsValid = true) : exec .tsPack s = .next (afterTsPack s) := by
  have hcode : tsPackResult s = .ok := if_pos h
  rw [exec_eq_next_complete, resultOf, hcode]
  rfl

theorem exec_tsPack_of_not_valid {s : State} (h : s.status.tsValid = false) :
    exec .tsPack s = .next { s with status := { s.status with err := 5#4, sticky := true } } := by
  have hcode : tsPackResult s = .noValue := if_neg (Bool.eq_false_iff.mp h)
  rw [exec_eq_next_complete, resultOf, hcode]
  rfl

theorem afterTsPack_tsFrame_of_cds7 {s : State} (h : s.params.tsLayout = .cds7) :
    (afterTsPack s).tsFrame =
      ⟨s.tsv.pfield ++ s.tsv.day ++ s.tsv.ms.extractLsb' 24 8, s.tsv.ms.extractLsb' 0 24 ++ 0x00#8⟩ := by
  rw [← tsFrameWords_cds7, ← h]
  rfl

theorem afterTsPack_tsFrame_of_rsv8 {s : State} (h : s.params.tsLayout = .rsv8) :
    (afterTsPack s).tsFrame = ⟨s.tsv.pfield ++ s.tsv.day ++ 0x00#8, s.tsv.ms⟩ := by
  rw [← tsFrameWords_rsv8, ← h]
  rfl

end Sys2Proof.Proofs

/-! PROOFS. The statements of spec/43_timestamp.md: UNIX time of a day count, the two commit commands, the calendar, the
round trip and TS_PACK. -/

namespace Sys2Proof.Proofs

open Sys2Proof Sys2Proof.Machine Sys2Proof.Safety Sys2Proof.Laws

/-- Settles O38: floor division splits the milliseconds into the seconds and the nanoseconds exactly. -/
theorem unixTimeOfDayCount : Obligations.UnixTimeOfDayCount := by
  refine ⟨rfl, rfl, fun d m hm => ?_⟩
  have hseconds := unixSeconds_range d hm
  refine ⟨?exactInstant, rfl, rfl, daysSince1970_range d, hseconds, ⟨unixNanos_le m, ?wholeMilliseconds⟩, ?thirtyFourBits,
    toInt_ofInt_unixSeconds d m⟩
  case exactInstant =>
    rw [unixSeconds_eq, unixNanos_eq]
    omega
  case wholeMilliseconds => exact Nat.mul_mod_left _ _
  case thirtyFourBits => omega

/-- Settles O39: the two ends of TS_CONVERT are those of `convertResult`. -/
theorem tsConvertCommitsOrRefuses : Obligations.TsConvertCommitsOrRefuses := by
  refine ⟨decode_encode .tsConvert, fun s => exec_tsConvert_of_le, fun s => exec_tsConvert_of_gt,
    fun s hpf hday hms => ?specExample⟩
  case specExample =>
    have htsv : (afterCommit 4383#16 0#32 s).tsv = ⟨0x40#8, 0x111F, 0, 0, 0, 0, 1970, 1, 1, 0, 0, 0⟩ := by
      rw [afterCommit_tsv, hpf, committedOf_1970]
    refine ⟨_, exec_tsConvert_of_operands hday hms (by decide), ?_⟩
    simp only [readReg, htsv]
    decide

/-- Settles O40: the calendar of R93 is the one counted out, and every commit is consistent. -/
theorem convertedTimestampIsConsistent : Obligations.ConvertedTimestampIsConsistent :=
  fun _ hms => ⟨_, exec_tsConvert_of_le hms, rfl, rfl, rfl, rfl, consistent_committedOf _ _ hms⟩

/-- Settles O41, by the commits of the two epochs. -/
theorem epochExamples : Obligations.EpochExamples := by
  refine ⟨fun s hday hms => ⟨_, exec_tsConvert_of_operands hday hms (by decide), committedOf_seconds _ _ _, ?first⟩,
    fun s hday hms => ⟨_, exec_tsConvert_of_operands hday hms (by decide), committedOf_seconds _ _ _, ?second⟩⟩
  case first =>
    rw [afterCommit_tsv, committedOf_1958]
    exact ⟨rfl, rfl, rfl, rfl, rfl, rfl, rfl⟩
  case second =>
    rw [afterCommit_tsv, committedOf_1970]
    exact ⟨rfl, rfl, rfl, rfl, rfl, rfl, rfl⟩

/-- Settles O42: R101 accepts exactly the instants of the statement, and its counts describe the operand. -/
theorem tsFromUnixCommitsOrRefuses : Obligations.TsFromUnixCommitsOrRefuses := by
  refine ⟨decode_encode .tsFromUnix, fun s sec ns hsec hns => ?_, fun s hpf hhi hlo hns => ?specExample⟩
  · subst hsec hns
    split
    case isTrue h =>
      obtain ⟨hns, hsec⟩ := h
      obtain ⟨d, m, hexec, hd, hm⟩ := exec_tsFromUnix_of_range (s := s) hns hsec
      obtain ⟨hms, hseconds, hnanos⟩ := unixTime_of_cds hns hd hm
      exact ⟨_, hexec, rfl, hd, hm, (committedOf_seconds _ d m).trans hseconds, (committedOf_nanos _ d m).trans hnanos,
        consistent_committedOf _ d hms⟩
    case isFalse h => exact exec_tsFromUnix_of_refused h
  case specExample =>
    have hnanos : unixInNanos s = 123456789 := by rw [unixInNanos, hns]; rfl
    have hsec : unixInSeconds s = 946728000 := by rw [unixInSeconds, hhi, hlo]; rfl
    have hcds : cdsFromUnix (unixInSeconds s) (unixInNanos s) = some (15340#16, 43200123#32) := by
      rw [hsec, hnanos]
      decide
    have htsv : (afterCommit 15340#16 43200123#32 s).tsv =
        ⟨0x40, 0x3BEC, 0x02932E7B, 0x386DEC40, 0, 123000000, 2000, 1, 1, 12, 0, 0⟩ := by
      rw [afterCommit_tsv, hpf]
      decide
    refine ⟨_, exec_tsFromUnix_of_cds (by omega) hcds, ?_⟩
    simp only [readReg, htsv]
    decide

/-- Settles O43: R101 undoes R91 on the registers the host copies, and the copied operands of TS_CONVERT are the committed
ones. -/
theorem commitRoundTrip : Obligations.CommitRoundTrip := by
  refine ⟨fun s t hms ht => ?convertThenUnix, fun s t ht herr => ?unixThenConvert⟩
  case convertThenUnix =>
    rw [exec_tsConvert_of_le hms] at ht
    cases ht
    have hseconds := committedOf_seconds s.params.pfield s.tsIn.day s.tsIn.ms
    have hnanos := committedOf_nanos s.params.pfield s.tsIn.day s.tsIn.ms
    exact ⟨_, exec_tsFromUnix_of_seconds hms hseconds hnanos, rfl, rfl, rfl, rfl⟩
  case unixThenConvert =>
    by_cases h : unixInNanos s ≤ 999999999 ∧ -378691200 ≤ unixInSeconds s ∧ unixInSeconds s ≤ 5283619199
    · obtain ⟨hns, hsec⟩ := h
      obtain ⟨d, m, hexec, hd, hm⟩ := exec_tsFromUnix_of_range hns hsec
      obtain ⟨hms, hseconds, hnanos⟩ := unixTime_of_cds hns hd hm
      rw [hexec] at ht
      cases ht
      have hday := readReg_tsvPday_day (afterCommit d m s)
      exact ⟨_, exec_tsConvert_of_operands hday rfl hms, rfl, rfl, (committedOf_seconds _ d m).trans hseconds,
        (committedOf_nanos _ d m).trans hnanos⟩
    · rw [exec_tsFromUnix_of_refused h] at ht
      cases ht
      have herr4 : (4#4 : Nibble) = 0#4 := herr
      exact absurd herr4 (by decide)

/-- Settles O44: the two ends of TS_PACK are those of `tsPackResult`; a second TS_PACK reads the same committed value. -/
theorem tsPackWritesFrame : Obligations.TsPackWritesFrame := by
  refine ⟨decode_encode .tsPack, fun s => exec_tsPack_of_not_valid, fun s hvalid hlayout => ?cds7,
    fun s hvalid hlayout => ?rsv8, fun s t u ht hu => ?twice, fun s hvalid hpf hday hms => ?specExample⟩
  case cds7 =>
    rw [exec_tsPack_of_valid hvalid, ← afterTsPack_tsFrame_of_cds7 hlayout]
    rfl
  case rsv8 =>
    rw [exec_tsPack_of_valid hvalid, ← afterTsPack_tsFrame_of_rsv8 hlayout]
    rfl
  case twice =>
    cases hvalid : s.status.tsValid with
    | true =>
      rw [exec_tsPack_of_valid hvalid] at ht
      cases ht
      rw [exec_tsPack_of_valid (s := afterTsPack s) hvalid] at hu
      cases hu
      rfl
    | false =>
      rw [exec_tsPack_of_not_valid hvalid] at ht
      cases ht
      cases (exec_tsPack_of_not_valid (by exact hvalid)).symm.trans hu
      rfl
  case specExample =>
    refine ⟨_, exec_tsPack_of_valid hvalid, ?_⟩
    cases hlayout : s.params.tsLayout with
    | cds7 =>
      rw [afterTsPack_tsFrame_of_cds7 hlayout, hpf, hday, hms]
      decide
    | rsv8 =>
      rw [afterTsPack_tsFrame_of_rsv8 hlayout, hpf, hday, hms]
      decide

/-- Settles O45: the last byte of a frame register whose word ends in 0x00. -/
theorem reservedFrameByteIsZero : Obligations.ReservedFrameByteIsZero := by
  intro s t hvalid ht
  rw [exec_tsPack_of_valid hvalid] at ht
  cases ht
  refine ⟨fun hlayout => ?_, fun hlayout => ?_⟩
  · rw [afterTsPack_tsFrame_of_rsv8 hlayout]
    exact BitVec.extractLsb'_append_eq_right
  · rw [afterTsPack_tsFrame_of_cds7 hlayout]
    exact BitVec.extractLsb'_append_eq_right

end Sys2Proof.Proofs

/-! PROOFS. Which moves give a next state (spec/60_exceptions.md R123, R124), what a command that ends with an error writes
(R112), and the parts of the block's invariant over a command (R109, spec/10_state.md R18, R21, R33, R37). -/

namespace Sys2Proof.Proofs

open Sys2Proof Sys2Proof.Machine Sys2Proof.Safety Sys2Proof.Laws

/-! ### Allowed and forbidden moves -/

/-- The static check of a transaction (spec/20_memory.md R42) accepts what the block's selection of a register accepts. -/
theorem mappedAccess_iff_selectReg (p : Params) (addr size : Nat) :
    mappedAccess p addr size = true ↔ ∃ r, selectReg p addr size = .ok r := by
  simp only [mappedAccess, Bool.and_eq_true, decide_eq_true_eq, selectReg_eq_ok_iff]
  constructor
  · rintro ⟨⟨⟨hbase, hmod⟩, hle⟩, hsize⟩
    obtain ⟨r, hr⟩ := exists_eq_regOffset hmod hle
    exact ⟨r, hsize, by omega⟩
  · rintro ⟨r, hsize, rfl⟩
    obtain ⟨hmod, hle⟩ := regOffset_range r
    rw [Nat.add_sub_cancel_left]
    exact ⟨⟨⟨Nat.le_add_right _ _, hmod⟩, hle⟩, hsize⟩

/-- A mapped transaction is at a register's address. -/
theorem exists_register_of_mappedAccess {p : Params} {addr size : Nat} (h : mappedAccess p addr size = true) :
    ∃ r, size = 4 ∧ addr = p.base + regOffset r := by
  obtain ⟨r, hr⟩ := (mappedAccess_iff_selectReg p addr size).mp h
  exact ⟨r, selectReg_eq_ok_iff.mp hr⟩

/-- A transaction that is not mapped reaches no register. -/
theorem exists_fault_of_not_mappedAccess {p : Params} {addr size : Nat} (h : ¬ mappedAccess p addr size = true) :
    ∃ f, selectReg p addr size = .error f := by
  cases hsel : selectReg p addr size with
  | error f => exact ⟨f, rfl⟩
  | ok r => exact absurd ((mappedAccess_iff_selectReg p addr size).mpr ⟨r, hsel⟩) h

/-- An allowed move gives a next state, and so does the end of the host's program. -/
theorem step_next_of_allowed {s : State}
    (h : ∀ m, s.program[s.pc]? = some m → HostMove.wellFormed s.params m = true) : ∃ t, step s = .next t := by
  cases hm : s.program[s.pc]? with
  | none => exact ⟨s, by simp only [step, fetchMove, hm]⟩
  | some m =>
    have hallowed := h m hm
    cases m with
    | reset => exact ⟨advance (platformReset s), by simp only [step, fetchMove, hm]; rfl⟩
    | read addr size =>
      obtain ⟨r, rfl, rfl⟩ := exists_register_of_mappedAccess hallowed
      exact ⟨_, step_of_nextRead hm⟩
    | write addr size v =>
      obtain ⟨r, rfl, rfl⟩ := exists_register_of_mappedAccess hallowed
      exact step_next_of_nextWrite hm

/-- A forbidden move ends in a fault. -/
theorem step_fault_of_forbidden {s : State} {m : HostMove} (hm : s.program[s.pc]? = some m)
    (h : ¬ HostMove.wellFormed s.params m = true) : ∃ f, step s = .fault f := by
  cases m with
  | reset => exact absurd rfl h
  | read addr size =>
    obtain ⟨f, hf⟩ := exists_fault_of_not_mappedAccess h
    exact ⟨f, step_of_read_error hm hf⟩
  | write addr size v =>
    obtain ⟨f, hf⟩ := exists_fault_of_not_mappedAccess h
    exact ⟨f, step_of_write_error hm hf⟩

/-- A step that does not end in a fault had no forbidden move to make. -/
theorem allowed_of_not_fault {s : State} (h : ∀ f, step s ≠ .fault f) :
    ∀ m, s.program[s.pc]? = some m → HostMove.wellFormed s.params m = true := by
  intro m hm
  by_contra hforbidden
  obtain ⟨f, hfault⟩ := step_fault_of_forbidden hm hforbidden
  exact h f hfault

/-! ### Errors -/

/-- Only CRC_CHECK ends with CHECKSUM_MISMATCH, and only when the trailer is not the digest (spec/41_crc.md R80). -/
theorem eq_crcCheck_of_checksumMismatch {i : Instr} {s : State} (h : resultOf i s = .checksumMismatch) :
    ∃ x, i = .crcCheck x ∧ x ≠ s.crc.value := by
  cases i with
  | crcCheck x => exact ⟨x, rfl, fun heq => by simp [resultOf, checkResult, heq] at h⟩
  | shPack =>
    simp only [resultOf, packResult] at h
    split at h <;> cases h
  | tsConvert => rcases convertResult_cases s.tsIn.ms with hcode | hcode <;> cases hcode.symm.trans h
  | tsFromUnix => rcases resultOf_tsFromUnix_cases s with hcode | hcode <;> cases hcode.symm.trans h
  | tsPack =>
    simp only [resultOf, tsPackResult] at h
    split at h <;> cases h
  | _ => cases h

/-- Everything a command that ends with an error can do (R112): record the error, or record a mismatch with its data. -/
theorem exec_error_cases {i : Instr} {s t : State} (h : exec i s = .next t) (herr : t.status.err ≠ 0#4) :
    (t.status.err ≠ 3#4 ∧ t = { s with status := { s.status with err := t.status.err, sticky := true } }) ∨
    (∃ x, i = .crcCheck x ∧
      t = { s with crc := { s.crc with expected := x, found := s.crc.value },
                   status := { s.status with err := 3#4, sticky := true, matched := false } }) := by
  rcases finish_cases ((exec_eq_finish i s).symm.trans h) with ⟨-, rfl⟩ | ⟨hcode, -⟩ | ⟨hok, hmismatch, rfl⟩
  · exact absurd rfl herr
  · obtain ⟨x, rfl, hne⟩ := eq_crcCheck_of_checksumMismatch hcode
    rw [exec_crcCheck_of_ne hne] at h
    cases h
    exact .inr ⟨x, rfl, rfl⟩
  · have hbits : resultBits (resultOf i s) ≠ 3#4 := fun heq =>
      hmismatch (resultBits_injective (b := .checksumMismatch) heq)
    refine .inl ⟨hbits, ?_⟩
    rw [setResult, stickyAfter_error hok]

/-! ### The parts of the block's invariant over a command -/

/-- A command leaves a defined code in ERR, and an error sets STICKY, whatever stood there before (R109, R18). -/
theorem exec_resultCodeInv {i : Instr} {s t : State} (h : exec i s = .next t) : ResultCodeInv t := by
  rw [ResultCodeInv, exec_status h]
  exact ⟨statusAfter_err_le i s, statusAfter_sticky_of_err⟩

/-- Every command gives a next state and leaves a defined code in ERR (spec/60_exceptions.md R124, R109). -/
theorem exec_next_err_le (i : Instr) (s : State) : ∃ t, exec i s = .next t ∧ t.status.err.toNat ≤ 5 := by
  have hend := exec_eq_next_complete i s
  obtain ⟨herr, -⟩ := exec_resultCodeInv hend
  exact ⟨_, hend, herr⟩

/-- Everything a command can do to the committed timestamp (spec/43_timestamp.md R90, R97): keep it, or commit counts with
the milliseconds in range. -/
theorem exec_timestamp_cases {i : Instr} {s t : State} (h : exec i s = .next t) :
    (t.tsv, t.status.tsValid) = (s.tsv, s.status.tsValid) ∨ ∃ d m, m.toNat ≤ 86399999 ∧ t = afterCommit d m s := by
  cases i with
  | tsConvert =>
    by_cases hms : s.tsIn.ms.toNat ≤ 86399999
    · rw [exec_tsConvert_of_le hms] at h
      cases h
      exact .inr ⟨_, _, hms, rfl⟩
    · rw [exec_tsConvert_of_gt (Nat.not_le.mp hms)] at h
      cases h
      exact .inl rfl
  | tsFromUnix =>
    by_cases hrange : unixInNanos s ≤ 999999999 ∧ -378691200 ≤ unixInSeconds s ∧ unixInSeconds s ≤ 5283619199
    · obtain ⟨hns, hsec⟩ := hrange
      obtain ⟨d, m, hexec, hd, hm⟩ := exec_tsFromUnix_of_range hns hsec
      obtain ⟨hms, -, -⟩ := unixTime_of_cds hns hd hm
      rw [hexec] at h
      cases h
      exact .inr ⟨d, m, hms, rfl⟩
    · rw [exec_tsFromUnix_of_refused hrange] at h
      cases h
      exact .inl rfl
  | _ =>
    exact .inl (finish_keeps (fun u => (u.tsv, u.status.tsValid)) h (fun _ _ => rfl) (fun _ _ => rfl) rfl)

/-- A commit leaves a consistent timestamp with the block's p-field (spec/43_timestamp.md R90, spec/10_state.md R33). -/
theorem timestampInv_afterCommit (d : Half) {m : Word} (hms : m.toNat ≤ 86399999) (s : State) :
    TimestampInv (afterCommit d m s) :=
  ⟨rfl, consistent_committedOf s.params.pfield d hms⟩

/-- A command keeps the committed timestamp consistent, or absent (spec/10_state.md R21). -/
theorem exec_timestampInv {i : Instr} {s t : State} (h : exec i s = .next t) (hinv : TimestampInv s) :
    TimestampInv t := by
  rcases exec_timestamp_cases h with hkept | ⟨d, m, hms, rfl⟩
  · obtain ⟨htsv, hvalid⟩ := Prod.mk.inj hkept
    rwa [TimestampInv, htsv, hvalid, exec_params h]
  · exact timestampInv_afterCommit d hms s

/-- Only TS_PACK writes the timestamp frame (spec/10_state.md R37). -/
theorem writesOf_tsFrame {i : Instr} (hi : i ≠ .tsPack) (s : State) : (writesOf i s s).tsFrame = s.tsFrame := by
  cases i with
  | tsPack => exact absurd rfl hi
  | tsFromUnix =>
    unfold writesOf
    split <;> rfl
  | _ => rfl

/-- Everything a command can do to the timestamp frame (spec/10_state.md R37): keep it, or pack the committed timestamp. -/
theorem exec_tsFrame_cases {i : Instr} {s t : State} (h : exec i s = .next t) :
    t.tsFrame = s.tsFrame ∨ t = afterTsPack s := by
  by_cases hi : i = .tsPack
  · subst hi
    cases hvalid : s.status.tsValid with
    | true =>
      rw [exec_tsPack_of_valid hvalid] at h
      cases h
      exact .inr rfl
    | false =>
      rw [exec_tsPack_of_not_valid hvalid] at h
      cases h
      exact .inl rfl
  · exact .inl (finish_keeps State.tsFrame ((exec_eq_finish i s).symm.trans h) (fun _ _ => rfl) (fun _ _ => rfl)
      (writesOf_tsFrame hi s))

/-- TS_PACK leaves 0x00 in the frame byte that carries no field (spec/43_timestamp.md R105). -/
theorem frameInv_afterTsPack (s : State) : FrameInv (afterTsPack s) := by
  have hparams : (afterTsPack s).params = s.params := rfl
  rw [FrameInv, hparams]
  cases hlayout : s.params.tsLayout with
  | cds7 =>
    rw [afterTsPack_tsFrame_of_cds7 hlayout]
    exact BitVec.extractLsb'_append_eq_right
  | rsv8 =>
    rw [afterTsPack_tsFrame_of_rsv8 hlayout]
    exact BitVec.extractLsb'_append_eq_right

/-- A command keeps 0x00 in the frame byte that carries no field. -/
theorem exec_frameInv {i : Instr} {s t : State} (h : exec i s = .next t) (hinv : FrameInv s) : FrameInv t := by
  rcases exec_tsFrame_cases h with hkept | rfl
  · rwa [FrameInv, exec_params h, hkept]
  · exact frameInv_afterTsPack s

/-! ### The block's invariant -/

/-- The block's invariant speaks of the parameters, STATUS, the committed timestamp and its frame alone. -/
theorem blockInv_of_eq {s t : State} (hinv : BlockInv s) (hparams : t.params = s.params) (hstatus : t.status = s.status)
    (htsv : t.tsv = s.tsv) (hframe : t.tsFrame = s.tsFrame) : BlockInv t := by
  rwa [BlockInv, ResultCodeInv, TimestampInv, FrameInv, hparams, hstatus, htsv, hframe]

/-- ILLEGAL_CMD is a defined code and sets STICKY; the rest of the block stays (spec/30_encoding.md R61). -/
theorem blockInv_illegalCmd {s : State} (hinv : BlockInv s) : BlockInv (setResult .illegalCmd s) := by
  obtain ⟨-, htimestamp, hframe⟩ := hinv
  exact ⟨⟨resultBits_le .illegalCmd, fun _ => rfl⟩, htimestamp, hframe⟩

/-- A command keeps the block's invariant, part by part. -/
theorem exec_blockInv {i : Instr} {s t : State} (h : exec i s = .next t) (hinv : BlockInv s) : BlockInv t := by
  obtain ⟨-, htimestamp, hframe⟩ := hinv
  exact ⟨exec_resultCodeInv h, exec_timestampInv h htimestamp, exec_frameInv h hframe⟩

/-- The platform's reset makes the block's invariant hold, as the reset of the same parameters does. -/
theorem blockInv_platformReset (s : State) : BlockInv (platformReset s) :=
  blockInv_of_eq (resetSatisfiesBlockInvariant s.params) rfl rfl rfl rfl

/-- The host's index is no part of the block. -/
theorem blockInv_advance {s : State} (hinv : BlockInv s) : BlockInv (advance s) :=
  blockInv_of_eq hinv rfl rfl rfl rfl

end Sys2Proof.Proofs

/-! PROOFS. The statements of spec/60_exceptions.md: the block's invariant over a step, which steps give a next state, and
how a command ends. -/

namespace Sys2Proof.Proofs

open Sys2Proof Sys2Proof.Machine Sys2Proof.Safety Sys2Proof.Laws

/-- Settles O51, one case for each thing a step can do: only a reset, an illegal word and a command reach what the invariant
speaks of. -/
theorem stepKeepsBlockInvariant : Obligations.StepKeepsBlockInvariant := by
  intro s t hinv hstep
  rcases step_cases hstep with ⟨-, rfl⟩ | ⟨-, rfl⟩ | ⟨r, -, rfl⟩ | ⟨r, v, -, -, rfl⟩ | ⟨v, e, -, -, rfl⟩ |
    ⟨v, i, u, -, -, hexec, rfl⟩
  case inl => exact hinv
  case inr.inl => exact blockInv_advance (blockInv_platformReset s)
  case inr.inr.inl => exact blockInv_of_eq hinv rfl rfl rfl rfl
  case inr.inr.inr.inl => exact blockInv_of_eq hinv (by simp) (by simp) (by simp) (by simp)
  case inr.inr.inr.inr.inl => exact blockInv_advance (blockInv_illegalCmd hinv)
  case inr.inr.inr.inr.inr => exact blockInv_advance (exec_blockInv hexec hinv)

/-- Settles O18: an allowed move gives a next state, a forbidden one a fault, and no move a refusal. -/
theorem stepStopsOnlyOnForbiddenMoves : Obligations.StepStopsOnlyOnForbiddenMoves := by
  refine ⟨fun s => ⟨fun ⟨t, hnext⟩ => ?allowed, step_next_of_allowed⟩, fun s r hrefused => ?noRefusal⟩
  case allowed =>
    exact allowed_of_not_fault fun f hfault => by cases hnext.symm.trans hfault
  case noRefusal =>
    have hallowed := allowed_of_not_fault fun f hfault => by cases hrefused.symm.trans hfault
    obtain ⟨t, hnext⟩ := step_next_of_allowed hallowed
    cases hrefused.symm.trans hnext

/-- Settles O19: a command and an illegal word both end in a completion, which writes the number of a result code. -/
theorem everyCommandCompletes : Obligations.EveryCommandCompletes := by
  refine ⟨exec_next_err_le, fun w s => ?_⟩
  rcases runCommand_cases w s with ⟨e, -, hrun⟩ | ⟨i, -, hrun⟩
  · exact ⟨_, hrun, resultBits_le .illegalCmd⟩
  · rw [hrun]
    exact exec_next_err_le i s

/-- Settles O49: an illegal word records its error alone, and a command that fails records its error, with the mismatch data
when it is a CRC_CHECK. -/
theorem errorsWriteNothingElse : Obligations.ErrorsWriteNothingElse := by
  intro w s t hrun herr
  rcases runCommand_cases w s with ⟨e, -, hw⟩ | ⟨i, hd, hw⟩
  · cases hw.symm.trans hrun
    exact ⟨fun _ => rfl, fun h3 => absurd (show (1#4 : Nibble) = 3#4 from h3) (by decide)⟩
  · obtain rfl := eq_encode_of_decode hd
    rcases exec_error_cases (hw.symm.trans hrun) herr with ⟨hne, ht⟩ | ⟨x, rfl, rfl⟩
    · exact ⟨fun _ => ht, fun h3 => absurd h3 hne⟩
    · exact ⟨fun hne => absurd rfl hne, fun _ => ⟨x, rfl, rfl⟩⟩

end Sys2Proof.Proofs

/-! PROOFS. What a step can change of the block's registers (spec/70_reset_and_hazards.md R131): only a reset, a register
write, or the writes of a command; which writes reach which register; and what a step leaves of the host's program (R134). -/

namespace Sys2Proof.Proofs

open Sys2Proof Sys2Proof.Machine Sys2Proof.Safety Sys2Proof.Laws

/-! ### What only a register write or a command's own writes reach -/

/-- A part of the state that the host's bookkeeping and the recording of a result code (spec/60_exceptions.md R112) do not
reach, and that the mismatch data of a failed command changes only if the command's own writes do. -/
structure IsDataField {α : Type} (g : State → α) : Prop where
  advance : ∀ u, g (advance u) = g u
  recordRead : ∀ v u, g (recordRead v u) = g u
  setResult : ∀ code u, g (setResult code u) = g u
  keepMismatchData : ∀ u v, g u = g v → g (keepMismatchData u v) = g v

/-- A completion changes no data that the command's writes leave alone, whatever the result code (R112). -/
theorem complete_keeps_dataField {α : Type} {g : State → α} (hg : IsDataField g) {code : ResultCode} {w : State → State}
    {s : State} (hw : g (w s) = g s) : g (complete code w s) = g s := by
  cases code with
  | ok => exact (hg.setResult _ _).trans hw
  | checksumMismatch => exact (hg.setResult _ _).trans (hg.keepMismatchData _ _ hw)
  | _ => exact hg.setResult _ _

/-- Everything by which a step can change data of the block: a reset, a write of a register that holds it, or a command that
writes it. -/
theorem step_dataField_changed {α : Type} {g : State → α} (hg : IsDataField g) {s t : State} (h : step s = .next t)
    (hne : g t ≠ g s) :
    NextReset s ∨ (∃ r v, NextWrite s r v ∧ g (writeReg r v s) ≠ g s) ∨
      ∃ i, NextCommand s (encode i) ∧ g (writesOf i s s) ≠ g s := by
  rcases step_cases h with ⟨-, rfl⟩ | ⟨hm, rfl⟩ | ⟨r, -, rfl⟩ | ⟨r, v, -, hm, rfl⟩ | ⟨v, e, -, -, rfl⟩ |
    ⟨v, i, u, hm, hd, hexec, rfl⟩
  case inl => exact absurd rfl hne
  case inr.inl => exact .inl hm
  case inr.inr.inl => exact absurd ((hg.advance _).trans (hg.recordRead _ _)) hne
  case inr.inr.inr.inl => exact .inr (.inl ⟨r, v, hm, fun hw => hne ((hg.advance _).trans hw)⟩)
  case inr.inr.inr.inr.inl => exact absurd ((hg.advance _).trans (hg.setResult _ _)) hne
  case inr.inr.inr.inr.inr =>
    obtain rfl := eq_encode_of_decode hd
    cases (exec_eq_next_complete i s).symm.trans hexec
    exact .inr (.inr ⟨i, hm, fun hw => hne ((hg.advance _).trans (complete_keeps_dataField hg hw))⟩)

/-- Data that no register write reaches changes only on a reset or by a command that writes it. -/
theorem step_resultField_changed {α : Type} {g : State → α} (hg : IsDataField g)
    (hwrite : ∀ r v u, g (writeReg r v u) = g u) {s t : State} (h : step s = .next t) (hne : g t ≠ g s) :
    NextReset s ∨ ∃ i, NextCommand s (encode i) ∧ g (writesOf i s s) ≠ g s := by
  rcases step_dataField_changed hg h hne with hr | ⟨r, v, -, hw⟩ | hc
  · exact .inl hr
  · exact absurd (hwrite r v s) hw
  · exact .inr hc

/-! ### The data of the units -/

/-- The header unit, the timestamp converter's registers and CRC.VALUE hold data. -/
theorem isDataField_of_units {α : Type} (f : SecHdr → TsOperands → Committed → TsFrame → Half → α) :
    IsDataField fun u => f u.sh u.tsIn u.tsv u.tsFrame u.crc.value :=
  ⟨fun _ => rfl, fun _ _ => rfl, fun _ _ => rfl, fun _ _ _ => rfl⟩

/-- The fields of CHK_INFO (spec/10_state.md R23). -/
def checkInfo (s : State) : Half × Half := (s.crc.expected, s.crc.found)

/-- CHK_INFO holds data: the mismatch data of CRC_CHECK is what its own writes put there (R112). -/
theorem isDataField_checkInfo : IsDataField checkInfo :=
  ⟨fun _ => rfl, fun _ _ => rfl, fun _ _ => rfl, fun _ _ h => h⟩

/-! ### Which command writes which data -/

/-- TS_FROM_UNIX writes nothing but a commit. -/
theorem writesOf_tsFromUnix_keeps {α : Type} {g : State → α} (hcommit : ∀ d m u, g (commitTimestamp d m u) = g u)
    (s u : State) : g (writesOf .tsFromUnix s u) = g u := by
  unfold writesOf
  split
  · rfl
  · exact hcommit _ _ u

/-- Only the two commit commands write the committed timestamp (spec/43_timestamp.md R90). -/
theorem writesOf_tsv_changed {i : Instr} {s : State} (h : (writesOf i s s).tsv ≠ s.tsv) :
    i = .tsConvert ∨ i = .tsFromUnix := by
  cases i with
  | tsConvert => exact .inl rfl
  | tsFromUnix => exact .inr rfl
  | _ => exact absurd rfl h

/-- Only CRC_CHECK writes CHK_INFO (spec/10_state.md R23). -/
theorem writesOf_checkInfo_changed {i : Instr} {s : State} (h : checkInfo (writesOf i s s) ≠ checkInfo s) :
    ∃ x, i = .crcCheck x := by
  cases i with
  | crcCheck x => exact ⟨x, rfl⟩
  | tsFromUnix => exact absurd (writesOf_tsFromUnix_keeps (fun _ _ _ => rfl) s s) h
  | _ => exact absurd rfl h

/-- Only SH_PACK writes the frame of the header unit (spec/10_state.md R26, R27). -/
theorem writesOf_shBytesOf_changed {i : Instr} {s : State} (h : shBytesOf (writesOf i s s) ≠ shBytesOf s) :
    i = .shPack := by
  cases i with
  | shPack => rfl
  | tsFromUnix => exact absurd (writesOf_tsFromUnix_keeps (fun _ _ _ => rfl) s s) h
  | _ => exact absurd rfl h

/-- No command writes the operand registers of the timestamp converter (spec/10_state.md R28 to R31). -/
theorem writesOf_tsIn (i : Instr) (s : State) : (writesOf i s s).tsIn = s.tsIn := by
  cases i with
  | tsFromUnix => exact writesOf_tsFromUnix_keeps (g := State.tsIn) (fun _ _ _ => rfl) s s
  | _ => rfl

/-- Only CRC_INIT, CRC_BYTE and CRC_HALF write CRC.VALUE (spec/10_state.md R22). -/
theorem writesOf_crc_value_changed {i : Instr} {s : State} (h : (writesOf i s s).crc.value ≠ s.crc.value) :
    i = .crcInit ∨ (∃ b, i = .crcByte b) ∨ ∃ x, i = .crcHalf x := by
  cases i with
  | crcInit => exact .inl rfl
  | crcByte b => exact .inr (.inl ⟨b, rfl⟩)
  | crcHalf x => exact .inr (.inr ⟨x, rfl⟩)
  | tsFromUnix => exact absurd (writesOf_tsFromUnix_keeps (g := fun u => u.crc.value) (fun _ _ _ => rfl) s s) h
  | _ => exact absurd rfl h

/-! ### Which register write reaches which data -/

theorem writeReg_crc_value_changed {r : RegName} {v : Word} {s : State}
    (h : (writeReg r v s).crc.value ≠ s.crc.value) : r = .CRC := by
  cases r with
  | CRC => rfl
  | _ => exact absurd rfl h

theorem writeReg_tsIn_changed {r : RegName} {v : Word} {s : State} (h : (writeReg r v s).tsIn ≠ s.tsIn) :
    r ∈ [RegName.TS_DAY_IN, .TS_MS_IN, .UNIX_IN_LO, .UNIX_IN_HI, .UNIX_IN_NS] := by
  cases r with
  | TS_DAY_IN | TS_MS_IN | UNIX_IN_LO | UNIX_IN_HI | UNIX_IN_NS => decide
  | _ => exact absurd rfl h

/-- A write that changes what a register reads is a write of that register (spec/20_memory.md R46). -/
theorem eq_of_readReg_writeReg_ne {r r' : RegName} {v : Word} {s : State}
    (h : readReg r' (writeReg r v s) ≠ readReg r' s) : r = r' :=
  Decidable.byContradiction fun hne => h (readReg_writeReg_of_ne (Ne.symm hne) v s)

/-! ### Which moves change which data -/

section StepChanges

variable {s t : State} (h : step s = .next t)
include h

/-- The committed timestamp changes only on a reset or by a commit command (spec/43_timestamp.md R90). -/
theorem step_tsv_changed (hne : t.tsv ≠ s.tsv) :
    NextReset s ∨ ∃ i, (i = .tsConvert ∨ i = .tsFromUnix) ∧ NextCommand s (encode i) := by
  refine (step_resultField_changed (isDataField_of_units fun _ _ tsv _ _ => tsv) (fun r v u => writeReg_tsv u r v)
    h hne).imp_right ?_
  rintro ⟨i, hc, hw⟩
  exact ⟨i, writesOf_tsv_changed hw, hc⟩

/-- A command that changes the committed timestamp commits one, so it ends with OK (R90, R97). -/
theorem step_tsv_changed_err (hne : t.tsv ≠ s.tsv) (hr : ¬ NextReset s) : t.status.err = 0#4 := by
  obtain ⟨i, -, hc⟩ := (step_tsv_changed h hne).resolve_left hr
  cases (step_of_nextCommand_encode hc).symm.trans h
  rcases exec_timestamp_cases (exec_eq_next_complete i s) with hkept | ⟨d, m, -, hcommit⟩
  · exact absurd (congrArg Prod.fst hkept) hne
  · rw [hcommit]
    rfl

/-- The timestamp frame changes only on a reset or by TS_PACK (spec/10_state.md R37). -/
theorem step_tsFrame_changed (hne : t.tsFrame ≠ s.tsFrame) : NextReset s ∨ NextCommand s (encode .tsPack) := by
  refine (step_resultField_changed (isDataField_of_units fun _ _ _ tsFrame _ => tsFrame)
    (fun r v u => writeReg_tsFrame u r v) h hne).imp_right ?_
  rintro ⟨i, hc, hw⟩
  obtain rfl : i = .tsPack := Decidable.byContradiction fun hi => hw (writesOf_tsFrame hi s)
  exact hc

/-- CHK_INFO changes only on a reset or by CRC_CHECK (spec/10_state.md R23). -/
theorem step_checkInfo_changed (hne : checkInfo t ≠ checkInfo s) :
    NextReset s ∨ ∃ x, NextCommand s (encode (.crcCheck x)) := by
  refine (step_resultField_changed isDataField_checkInfo
    (fun r v u => congrArg₂ Prod.mk (writeReg_crc_expected r v u) (writeReg_crc_found r v u)) h hne).imp_right ?_
  rintro ⟨i, hc, hw⟩
  obtain ⟨x, rfl⟩ := writesOf_checkInfo_changed hw
  exact ⟨x, hc⟩

/-- A register that shows bytes of the header unit's frame changes only on a reset, by SH_PACK, or by a write to it
(spec/10_state.md R26, R27). -/
theorem step_shFrame_changed {r : RegName} {f : ShBytes → Word} (hread : ∀ u, readReg r u = f (shBytesOf u))
    (hne : readReg r t ≠ readReg r s) :
    NextReset s ∨ NextCommand s (encode .shPack) ∨ ∃ v, NextWrite s r v := by
  have hdata : IsDataField (readReg r) := by
    rw [funext hread]
    exact isDataField_of_units fun sh _ _ _ _ => f ⟨sh.b0, sh.b1, sh.b2, sh.b3, sh.b4⟩
  rcases step_dataField_changed hdata h hne with hr | ⟨r', v, hm, hw⟩ | ⟨i, hc, hw⟩
  · exact .inl hr
  · obtain rfl := eq_of_readReg_writeReg_ne hw
    exact .inr (.inr ⟨v, hm⟩)
  · rw [hread, hread] at hw
    obtain rfl := writesOf_shBytesOf_changed (mt (congrArg f) hw)
    exact .inr (.inl hc)

/-- The operand registers of the timestamp converter change only on a reset or by a write to one of them
(spec/10_state.md R28 to R31). -/
theorem step_tsIn_changed (hne : t.tsIn ≠ s.tsIn) :
    NextReset s ∨ ∃ r v, r ∈ [RegName.TS_DAY_IN, .TS_MS_IN, .UNIX_IN_LO, .UNIX_IN_HI, .UNIX_IN_NS] ∧ NextWrite s r v := by
  rcases step_dataField_changed (isDataField_of_units fun _ tsIn _ _ _ => tsIn) h hne with
    hr | ⟨r, v, hm, hw⟩ | ⟨i, -, hw⟩
  · exact .inl hr
  · exact .inr ⟨r, v, writeReg_tsIn_changed hw, hm⟩
  · exact absurd (writesOf_tsIn i s) hw

/-- CRC.VALUE changes only on a reset, by a write to CRC, or by CRC_INIT and the feeding commands (spec/10_state.md R22). -/
theorem step_crc_value_changed (hne : t.crc.value ≠ s.crc.value) :
    NextReset s ∨ (∃ v, NextWrite s .CRC v) ∨ NextCommand s (encode .crcInit) ∨
      (∃ b, NextCommand s (encode (.crcByte b))) ∨ ∃ x, NextCommand s (encode (.crcHalf x)) := by
  rcases step_dataField_changed (isDataField_of_units fun _ _ _ _ value => value) h hne with
    hr | ⟨r, v, hm, hw⟩ | ⟨i, hc, hw⟩
  · exact .inl hr
  · obtain rfl := writeReg_crc_value_changed hw
    exact .inr (.inl ⟨v, hm⟩)
  · rcases writesOf_crc_value_changed hw with rfl | ⟨b, rfl⟩ | ⟨x, rfl⟩
    · exact .inr (.inr (.inl hc))
    · exact .inr (.inr (.inr (.inl ⟨b, hc⟩)))
    · exact .inr (.inr (.inr (.inr ⟨x, hc⟩)))

end StepChanges

/-! ### The host's program over a step -/

/-- A step keeps the host's program; while a move is left, it moves the index on by one (spec/10_state.md R14). -/
theorem step_program_pc {s t : State} (h : step s = .next t) (hpc : s.pc < s.program.length) :
    t.program = s.program ∧ t.pc = s.pc + 1 := by
  rcases step_cases h with ⟨hm, -⟩ | ⟨-, rfl⟩ | ⟨r, -, rfl⟩ | ⟨r, v, -, -, rfl⟩ | ⟨v, e, -, -, rfl⟩ |
    ⟨v, i, u, -, -, hexec, rfl⟩
  case inl => exact absurd hm (by simp [hpc])
  case inr.inr.inr.inr.inr =>
    rw [advance_program, advance_pc, exec_program hexec, exec_pc hexec]
    exact ⟨rfl, rfl⟩
  all_goals simp

/-- A legal program allows its next move. -/
theorem wellFormed_of_legalProgram {s : State} (hlegal : LegalProgram s) {m : HostMove} (hm : s.program[s.pc]? = some m) :
    HostMove.wellFormed s.params m = true :=
  hlegal m (List.mem_of_getElem? (i := 0) (by simpa using hm))

/-- What is left of a legal program after a move is legal. -/
theorem legalProgram_of_step {s t : State} (hlegal : LegalProgram s) (hprogram : t.program = s.program)
    (hpc : t.pc = s.pc + 1) (hparams : t.params = s.params) : LegalProgram t := by
  intro m hm
  rw [hprogram, hpc, ← List.drop_drop] at hm
  rw [hparams]
  exact hlegal m (List.mem_of_mem_drop hm)

/-- A run of the machine behind the host's interface goes through its steps one by one. -/
theorem run_succ_of_step {s t : core.State} (h : core.step s = .next t) (k : Nat) :
    Host.Core.run core (k + 1) s = Host.Core.run core k t := by
  rw [Host.Core.run, h]

/-- The `k` moves left of a legal program are made in `k` steps (spec/70_reset_and_hazards.md R134). -/
theorem exists_run_of_legalProgram (k : Nat) {s : State} (hlegal : LegalProgram s) (hk : s.pc + k = s.program.length) :
    ∃ t : State, Host.Core.run core k s = .next t ∧ t.pc = s.program.length ∧ t.program = s.program ∧
      t.params = s.params := by
  induction k generalizing s with
  | zero => exact ⟨s, rfl, hk, rfl, rfl⟩
  | succ k ih =>
    obtain ⟨u, hstep⟩ := step_next_of_allowed fun m => wellFormed_of_legalProgram hlegal
    obtain ⟨hprogram, hpc⟩ := step_program_pc hstep (by omega)
    have hparams := step_params hstep
    have hleft : u.pc + k = u.program.length := by rw [hprogram]; omega
    obtain ⟨t, hrun, ht⟩ := ih (legalProgram_of_step hlegal hprogram hpc hparams) hleft
    rw [hprogram, hparams] at ht
    exact ⟨t, (run_succ_of_step hstep k).trans hrun, ht⟩

end Sys2Proof.Proofs

/-! PROOFS. The statements of spec/70_reset_and_hazards.md: commands straight after reset, what each step may change, a saved
digest, and the length of a run. -/

namespace Sys2Proof.Proofs

open Sys2Proof Sys2Proof.Machine Sys2Proof.Safety Sys2Proof.Laws

/-- Settles O20, by induction on the moves left (`exists_run_of_legalProgram`). -/
theorem legalProgramEndsAfterItsMoves : Obligations.LegalProgramEndsAfterItsMoves := fun _ hlegal hpc =>
  exists_run_of_legalProgram _ hlegal (Nat.add_sub_of_le hpc)

/-- Settles O34: a write of CRC puts back the digest that a read of CRC showed, and folding goes on from there. -/
theorem savedDigestResumesExactly : Obligations.SavedDigestResumesExactly := by
  intro s u x is m hs hfed hne
  have hrestored : (writeReg .CRC (readReg .CRC s) u).crc.value = s.crc.value := readReg_crc_value s
  refine ⟨_, runCommands_of_fedByAll_of_ne_nil hfed hne _, ?_⟩
  rw [feed_crc_value, hrestored, hs, ← crcFold_append]
  rfl

/-- Settles O48, one register at a time; the words of the statement are those of the commands. -/
theorem resultRegistersChangeOnlyByTheirCommand : Obligations.ResultRegistersChangeOnlyByTheirCommand := by
  refine ⟨fun s t h hne => ?timestamp, fun s t => step_tsv_changed_err, fun s t => step_tsFrame_changed,
    fun s t h hne => ?checkInfo,
    fun s t h => step_shFrame_changed h (f := fun b => frameWord b.b0 b.b1 b.b2 b.b3) readReg_shFrame0_eq,
    fun s t h => step_shFrame_changed h (f := fun b => b.b4 ++ 0#24) readReg_shFrame1_eq,
    fun s t => step_tsIn_changed, fun s t => step_crc_value_changed⟩
  case timestamp =>
    refine (step_tsv_changed h hne).imp_right ?_
    rintro ⟨i, rfl | rfl, hc⟩
    · exact .inl hc
    · exact .inr hc
  case checkInfo =>
    refine step_checkInfo_changed h fun heq => ?_
    obtain ⟨hexpected, hfound⟩ := Prod.mk.inj heq
    exact hne.elim (absurd hexpected) (absurd hfound)

/-- Settles O50: at reset the version is 0, TS_VALID is 0, and CRC.VALUE and ERR are those of a fresh digest. -/
theorem commandsStraightAfterReset : Obligations.CommandsStraightAfterReset :=
  ⟨fun _ hp => exec_shPack_of_version_ne hp.symm, fun _ hp => ⟨_, exec_shPack_of_version_eq hp.symm, rfl⟩,
    fun _ => exec_tsPack_of_not_valid rfl,
    fun _ m => ⟨_, runCommands_of_fedByAll (fedByAll_map_crcByte m) rfl, rfl⟩⟩

end Sys2Proof.Proofs

/-! PROOFS. The platform's reset (spec/70_reset_and_hazards.md R125) as a step and after a command, and the two choices of the
model about the host's side: a transaction outside the window (notes/assumptions/5.md) and the end of its program
(notes/assumptions/3.md). -/

namespace Sys2Proof.Proofs

open Sys2Proof Sys2Proof.Machine Sys2Proof.Safety Sys2Proof.Laws

/-! ### The platform's reset -/

/-- The platform's reset is the machine right after reset (spec/10_state.md R39) with the host's side kept. -/
theorem platformReset_eq_resetWith (s : State) :
    platformReset s = { State.resetWith s.params with program := s.program, pc := s.pc, reads := s.reads } := rfl

/-- The reset move resets the block and goes on. -/
theorem step_of_nextReset {s : State} (h : NextReset s) : step s = .next (advance (platformReset s)) := by
  rw [NextReset] at h
  simp only [step, fetchMove, h, applyMove, thenAdvance]

/-- A reset forgets a completion's result code. -/
theorem platformReset_setResult (code : ResultCode) (s : State) :
    platformReset (setResult code s) = platformReset s := rfl

/-- A reset forgets whatever a command wrote: no command reaches the parameters or the host's side. -/
theorem platformReset_exec {i : Instr} {s t : State} (h : exec i s = .next t) : platformReset t = platformReset s :=
  exec_keeps platformReset h platformReset_setResult (hk := fun _ _ => rfl)
    (h1 := fun _ => rfl) (h2 := fun _ _ => rfl) (h3 := fun _ _ _ => rfl) (h4 := fun _ _ => rfl) (h5 := fun _ _ => rfl)
    (h6 := fun _ _ _ => rfl) (h7 := fun _ _ => rfl)

/-- Settles O2: the reset move's step is `platformReset`, which forgets an illegal word's record and a command's writes. -/
theorem platformResetRestoresEveryField : Obligations.PlatformResetRestoresEveryField := by
  refine ⟨fun s hreset => ?step, fun w s t hrun => ?afterCommand⟩
  case step => rw [step_of_nextReset hreset, platformReset_eq_resetWith, advance]
  case afterCommand =>
    rcases runCommand_cases w s with ⟨e, -, hillegal⟩ | ⟨i, -, hexec⟩
    · cases hillegal.symm.trans hrun
      exact platformReset_setResult .illegalCmd s
    · exact platformReset_exec (hexec.symm.trans hrun)

/-! ### Outside the window and past the program's end -/

/-- An address outside the 256 bytes from P_BASE selects no register of this block (spec/20_memory.md R41). -/
theorem selectReg_of_outside {p : Params} {addr : Nat} (size : Nat) (h : addr < p.base ∨ p.base + 256 ≤ addr) :
    selectReg p addr size = .error .outsideWindow := by
  rcases selectReg_cases p addr size with ⟨r, -, -, haddr⟩ | ⟨-, hlow, hhigh, -⟩ | ⟨hsel, -⟩
  · obtain ⟨-, hle⟩ := regOffset_range r
    omega
  · omega
  · exact hsel

/-- Settles O7: the selection of a register fails, for a read and for a write. -/
theorem outsideWindowFaults : Obligations.OutsideWindowFaults := fun _ _ size _ hout =>
  have hsel := selectReg_of_outside size hout
  ⟨fun hread => step_of_read_error hread hsel, fun hwrite => step_of_write_error hwrite hsel⟩

/-- Settles O17: an index past the program's end fetches no move. -/
theorem finishedProgramIdles : Obligations.FinishedProgramIdles := by
  intro s hend
  have hnone : s.program[s.pc]? = none := List.getElem?_eq_none hend
  simp only [step, fetchMove, hnone]

end Sys2Proof.Proofs
